-- ==== Sys2Proof/Word.lean ====
section
/-! DEFINITION. The word types of the block (00_scope.md R6, R7; 30_encoding.md R90). -/

namespace Sys2Proof

/-- `u8`: a device register, a FIFO element, the data operand of a STORE (R6). -/
abbrev Byte := BitVec 8

/-- `u3`: a window offset, `OFFSET_BITS` = 3 wide (20_memory.md R50). -/
abbrev Offset := BitVec 3

/-- The operation kind, bits 14:11 of the request word (R90). -/
abbrev Kind := BitVec 4

/-- The request word: kind, offset, data (R90). -/
abbrev RequestWord := BitVec 15

/-- The decode key `D : request`, with DLAB as bit 15 (R90). -/
abbrev DecodeKey := BitVec 16

end Sys2Proof
end

