-- ==== Sys2Proof/Config.lean ====
section
/-! DEFINITION. What is fixed for the block's lifetime (10_state.md R36), the draws the environment supplies to a
step, and the free values. -/

namespace Sys2Proof

/-- The numeric parameters of 00_scope.md R5: "A model keeps them as named parameters so that a different audited value can
replace them". Their decided values are `Codes.decided`. -/
structure Codes where
  /-- `IER_ERBFI`: the received-data interrupt enable bit. -/
  ierErbfi : Byte
  /-- `IER_ETBEI`: the THR-empty interrupt enable bit. -/
  ierEtbei : Byte
  /-- `IER_ELSI`: the line-status interrupt enable bit. -/
  ierElsi : Byte
  /-- `IER_EDSSI`: the modem-status interrupt enable bit. -/
  ierEdssi : Byte
  /-- `IER_MASK`: the 4 defined IER bits. -/
  ierMask : Byte
  /-- `LCR_DLAB`: the divisor latch access bit. -/
  lcrDlab : Byte
  /-- `IIR_RX_READY`: IIR while the receive FIFO is not empty. -/
  iirRxReady : Byte
  /-- `IIR_TX_READY`: IIR while the receive FIFO is empty. -/
  iirTxReady : Byte
  /-- `LSR_DATA_AVAILABLE`: the data-available bit. -/
  lsrDataAvailable : Byte
  /-- `LSR_THR_EMPTY`: the THR-empty bit. -/
  lsrThrEmpty : Byte
  /-- `MSR_CARRIER_DETECT`: the carrier-detect bit. -/
  msrCarrierDetect : Byte
  /-- `MSR_DATA_SET_READY`: the data-set-ready bit. -/
  msrDataSetReady : Byte
deriving DecidableEq, Repr, Inhabited

/-- The configuration: the parameters of 00_scope.md R5 (10_state.md R36). The construction values RESET_ are draws (`Draw`);
TX_DEPTH, unbounded, and OFFSET_BITS, 3, are the types of `tx` and of `Offset` (log 6). -/
structure Config where
  /-- `UART_BASE`: the bus address of window offset 0. -/
  uartBase : Nat
  /-- `IRQ_LINE`: the line number passed to `signal_irq`. -/
  irqLine : Nat
  /-- `RX_DEPTH`: the receive FIFO's capacity in bytes; `none` is unbounded, the default. -/
  rxDepth : Option Nat
  /-- `TRACE_ENABLED`: whether an access emits a Trace event. -/
  traceEnabled : Bool
  /-- The numeric parameters. -/
  codes : Codes
deriving DecidableEq, Repr, Inhabited

/-- What a step brings beside its request word: the draws, which the host or the platform settles and the block cannot
choose (00_scope.md R5, 43_host_port.md R152 and R156, 70_reset_and_hazards.md R190), and the operand of CONSTRUCT. A step
uses the ones its rule names. -/
structure Draw where
  /-- HOST_TX_POP: whether the host write succeeds (R152). -/
  ok : Bool
  /-- STOP: how many transmit bytes the bridge still relays (R156). -/
  relayed : Nat
  /-- CONSTRUCT: its operand, the configuration of the new device (R190). -/
  config : Config
  /-- CONSTRUCT: whether a fatal startup failure happens (R190, 60_exceptions.md R172). -/
  fatal : Bool
  /-- CONSTRUCT: `RESET_RBR` (10_state.md R38). -/
  resetRbr : Byte
  /-- CONSTRUCT: `RESET_THR`. -/
  resetThr : Byte
  /-- CONSTRUCT: `RESET_SCR`. -/
  resetScr : Byte
  /-- CONSTRUCT: `RESET_DLL`. -/
  resetDll : Byte
  /-- CONSTRUCT: `RESET_DLM`. -/
  resetDlm : Byte
deriving DecidableEq, Repr, Inhabited

/-- Free value (log 3): the draws of the construction that made the state after reset. "A proof must hold for every
draw" (10_state.md R38). -/
opaque Config.constructionDraw : Draw

/-- Free value (log 6): `UART_BASE`, platform-chosen (00_scope.md R5). -/
opaque Config.openUartBase : Nat

/-- Free value (log 6): `IRQ_LINE`, given at construction (00_scope.md R5). -/
opaque Config.openIrqLine : Nat

/-- Free value (log 6): `TRACE_ENABLED`, an OPEN Boolean (00_scope.md R5). -/
opaque Config.openTraceEnabled : Bool

end Sys2Proof
end

