-- ==== Sys2Proof/Machine/Parameters.lean ====
section
/-! DEFINITION. The values the spec decided for the parameters of 00_scope.md R5, and the configuration at reset, which
configurations are legal, and the window of a configuration. -/

namespace Sys2Proof

/-- The decided values: `IER_ERBFI` and `LCR_DLAB` are the source's, the others the standard 16550 values (00_scope.md R5,
decision D2; log 5). -/
def Codes.decided : Codes where
  ierErbfi := 0x01
  ierEtbei := 0x02
  ierElsi := 0x04
  ierEdssi := 0x08
  ierMask := 0x0F
  lcrDlab := 0x80
  iirRxReady := 0x04
  iirTxReady := 0x02
  lsrDataAvailable := 0x01
  lsrThrEmpty := 0x20
  msrCarrierDetect := 0x80
  msrDataSetReady := 0x20

/-- The configuration of the state after reset: the OPEN parameters are free, `RX_DEPTH` has the spec's default, the codes
their decided values (00_scope.md R5; log 6). -/
def Config.atReset : Config where
  uartBase := Config.openUartBase
  irqLine := Config.openIrqLine
  rxDepth := none
  traceEnabled := Config.openTraceEnabled
  codes := Codes.decided

/-- The codes meet the rules that name bits by number: ERBFI is IER bit 0 (42_irq_service.md R140), DLAB is LCR bit 7
(00_scope.md R8), `IER_MASK` is the 4 enable bits (00_scope.md R5) and leaves out bits 7:4 (10_state.md R24, R39). The values
of decision D2 stay free (log 22). -/
def Codes.wf (c : Codes) : Bool :=
  c.ierErbfi == 0x01 && c.lcrDlab == 0x80 && c.ierMask == c.ierErbfi ||| c.ierEtbei ||| c.ierElsi ||| c.ierEdssi &&
    c.ierMask &&& 0xF0 == 0

/-- `RX_DEPTH` is a natural number of at least 1, or unbounded (00_scope.md R5). -/
def Config.depthWf (c : Config) : Bool :=
  match c.rxDepth with
  | none => true
  | some n => decide (1 ≤ n)

/-- A configuration the spec allows (00_scope.md R5). -/
def Config.wf (c : Config) : Bool := c.depthWf && c.codes.wf

/-- An address is in the window of 8 bytes at `UART_BASE` (20_memory.md R50). -/
def Config.inWindow (c : Config) (addr : Nat) : Bool :=
  decide (c.uartBase ≤ addr) && decide (addr < c.uartBase + 8)

end Sys2Proof
end

