-- ==== Sys2Proof/Syntax.lean ====
section
/-! DEFINITION. The block's operations, one constructor for each row of spec/opcode_table.json, and the vocabulary
they are built from. -/

namespace Sys2Proof

/-- The two agents that step the block (10_state.md R41). -/
inductive Agent where
  | main
  | bridge
deriving DecidableEq, Repr

/-- The eight stored registers (10_state.md R20). IIR, LSR, MSR and FCR have no storage. -/
inductive Reg where
  | rbr | thr | ier | lcr | mcr | scr | dll | dlm
deriving DecidableEq, Repr

/-- The direction of a register access, as a Trace record shows it (10_state.md R37). -/
inductive AccessKind where
  | load
  | store
deriving DecidableEq, Repr

/-- A bus master's access before the window dispatch (20_memory.md R51): a read of `size` bytes, or a write of bytes. -/
inductive BusAccess where
  | read (addr : Nat) (size : Nat)
  | write (addr : Nat) (bytes : List Byte)
deriving DecidableEq, Repr

/-- An operation as its interface presents it, before DLAB selects the register (30_encoding.md R91). -/
inductive Request where
  | load (off : Offset)
  | store (off : Offset) (v : Byte)
  | service
  | hostRx (b : Byte)
  | hostTxPop
  | suspend
  | resume
  | construct
  | stop
deriving DecidableEq, Repr

/-- The operations of the opcode table (30_encoding.md R92). -/
inductive Instr where
  | loadRbr
  | loadDll
  | loadIer
  | loadDlm
  | loadIir
  | loadLcr
  | loadMcr
  | loadLsr
  | loadMsr
  | loadScr
  | storeThr (v : Byte)
  | storeDll (v : Byte)
  | storeIer (v : Byte)
  | storeDlm (v : Byte)
  | storeFcr (v : Byte)
  | storeLcr (v : Byte)
  | storeMcr (v : Byte)
  | storeLsr (v : Byte)
  | storeMsr (v : Byte)
  | storeScr (v : Byte)
  | service
  | hostRx (b : Byte)
  | hostTxPop
  | suspend
  | resume
  | construct
  | stop
deriving DecidableEq, Repr

end Sys2Proof
end

