-- ==== Sys2Proof/Machine/State.lean ====
section
/-! DEFINITION. The machine's state as plain data (10_state.md), the reasons a step stops, and the state after reset. -/

namespace Sys2Proof.Machine

/-- The stored registers (10_state.md R20). -/
structure Regs where
  rbr : Byte
  thr : Byte
  ier : Byte
  lcr : Byte
  mcr : Byte
  scr : Byte
  dll : Byte
  dlm : Byte
deriving DecidableEq, Repr

/-- The life of the device (10_state.md R35). `unconstructed` is the time "before the first construction"
(30_encoding.md R93), which R35 does not list: DEDUCED, log 7. -/
inductive Life where
  | unconstructed
  | running
  | stopped
  | aborted
deriving DecidableEq, Repr

/-- Why the device aborted (60_exceptions.md R172). -/
inductive AbortReason where
  /-- A fatal failure at construction. -/
  | startup
  /-- A fatal failure of the bridge's wait primitive. -/
  | wait
deriving DecidableEq, Repr

/-- The block's outputs (10_state.md R37). -/
inductive Event where
  /-- One call of the interrupt sink. -/
  | irqSignal (line : Nat)
  /-- One byte delivered toward the host terminal. -/
  | hostOut (b : Byte)
  /-- One access-trace record; a claim must not depend on it (40_loads.md R110). -/
  | trace (kind : AccessKind) (off : Offset) (v : Byte)
  /-- The fatal fault. -/
  | abort (reason : AbortReason)
deriving DecidableEq, Repr

/-- What the outside presents to the block in one step (10_state.md R40). -/
inductive Input where
  /-- A request word with the draws of its step (30_encoding.md R90; log 2). -/
  | request (w : RequestWord) (draw : Draw)
  /-- A bus master's access (20_memory.md R51). -/
  | bus (access : BusAccess)
  /-- The BRIDGE fault step, which has no request word (60_exceptions.md R172, 30_encoding.md R90). -/
  | bridgeFault
deriving DecidableEq, Repr

/-- The whole state. INVENTORY.md lists each field with its rule and its value at reset. -/
structure State where
  /-- RBR, THR, IER, LCR, MCR, SCR, DLL, DLM (10_state.md R20). -/
  regs : Regs
  /-- The receive FIFO, oldest byte first (10_state.md R32). -/
  rx : List Byte
  /-- The transmit FIFO, oldest byte first (10_state.md R33). -/
  tx : List Byte
  /-- Host input is discarded while true (10_state.md R34). -/
  suspended : Bool
  /-- The device's life (10_state.md R35). -/
  life : Life
  /-- The output event history, oldest first (10_state.md R37). -/
  events : List Event
  /-- The byte the last operation returned to its caller, if it returned one (R37; the model's own field, log 11). -/
  returned : Option Byte
  /-- The configuration, fixed for the device's lifetime (10_state.md R36): the operand of the CONSTRUCT that made the device
  (70_reset_and_hazards.md R190; log 6). -/
  cfg : Config
  /-- The draws of the operation being run, and CONSTRUCT's operand (the model's own field, log 2). -/
  draw : Draw
  /-- The inputs still to come, in order (10_state.md R40; the model's own field, log 1). -/
  schedule : List Input
deriving DecidableEq, Repr

/-- Why the machine stops with a fault. -/
inductive Fault where
  /-- Every operation on a device in `Aborted` raises it: DeviceAbort is final (60_exceptions.md R172). Safe. -/
  | deviceAborted
deriving DecidableEq, Repr

/-- Why an input has no step. -/
inductive Refusal where
  /-- exec's arm of an operation without a meaning. Safe. -/
  | notModelled (mnemonic : String)
  /-- The decoder, for kinds 0b1001 to 0b1111 (30_encoding.md R94). Safe. -/
  | reservedKind (kind : Kind)
  /-- Any operation but CONSTRUCT in `Stopped` (30_encoding.md R93). Safe. -/
  | deviceStopped
  /-- Any operation but CONSTRUCT before the first construction (30_encoding.md R93). Safe. -/
  | notConstructed
  /-- CONSTRUCT while the device runs (30_encoding.md R93, 90_conflicts.md C11). Safe. -/
  | alreadyConstructed
  /-- CONSTRUCT with a configuration the spec does not allow (00_scope.md R5; log 22). Safe. -/
  | illegalConfiguration
  /-- HOST_RX while not suspended and the receive FIFO is full: it "has no step and BRIDGE holds the byte"
  (43_host_port.md R150). Safe. -/
  | rxFull
  /-- HOST_TX_POP with `tx` empty: "there is no step" (43_host_port.md R152). Safe. -/
  | txEmpty
  /-- A bus access outside the window never reaches the block (20_memory.md R52). Safe. -/
  | outsideWindow (addr : Nat)
  /-- A bus access of another width than one byte is refused, not split (20_memory.md R54). Safe. -/
  | accessWidth (size : Nat)
  /-- `step` with no input left: nothing is presented to the block (10_state.md R40; log 1). Safe. -/
  | noInput
deriving DecidableEq, Repr

/-- How an operation ends. -/
abbrev Result := Host.Outcome State Fault Refusal

/-- The state right after reset: what CONSTRUCT leaves (10_state.md R38). RBR, THR, SCR, DLL and DLM hold their draws,
which are free values (log 3). -/
def State.reset : State where
  regs :=
    { rbr := Config.constructionDraw.resetRbr
      thr := Config.constructionDraw.resetThr
      ier := 0x00
      lcr := 0x00
      mcr := 0x00
      scr := Config.constructionDraw.resetScr
      dll := Config.constructionDraw.resetDll
      dlm := Config.constructionDraw.resetDlm }
  rx := []
  tx := []
  suspended := false
  life := .running
  events := []
  returned := none
  cfg := Config.atReset
  draw := { Config.constructionDraw with config := Config.atReset }
  schedule := []

end Sys2Proof.Machine
end

