-- ==== Sys2Proof/WellFormed.lean ====
section
/-! DEFINITION. The checks on terms: which operations a DLAB value can spell, which bus accesses reach the block. Which
configurations the spec allows stands in Machine/Parameters.lean, because CONSTRUCT asks it. -/

namespace Sys2Proof

/-- The DLAB value an operation is banked under (30_encoding.md R71); `none` where the operation is not banked. -/
def Instr.bank : Instr → Option Bool
  | .loadRbr => some false
  | .loadDll => some true
  | .loadIer => some false
  | .loadDlm => some true
  | .storeThr _ => some false
  | .storeDll _ => some true
  | .storeIer _ => some false
  | .storeDlm _ => some true
  | .loadIir => none
  | .loadLcr => none
  | .loadMcr => none
  | .loadLsr => none
  | .loadMsr => none
  | .loadScr => none
  | .storeFcr _ => none
  | .storeLcr _ => none
  | .storeMcr _ => none
  | .storeLsr _ => none
  | .storeMsr _ => none
  | .storeScr _ => none
  | .service => none
  | .hostRx _ => none
  | .hostTxPop => none
  | .suspend => none
  | .resume => none
  | .construct => none
  | .stop => none

/-- An operation is well formed under a DLAB value when that value reaches it (30_encoding.md R71, R95). Its operands are
bytes by their type (R73). -/
def Instr.wf (dlab : Bool) (i : Instr) : Bool :=
  match i.bank with
  | none => true
  | some d => d == dlab

/-- A bus access that reaches the block: one byte, inside the window (20_memory.md R52, R54). -/
def BusAccess.wf (c : Config) : BusAccess → Bool
  | .read addr size => size == 1 && c.inWindow addr
  | .write addr bytes => bytes.length == 1 && c.inWindow addr

end Sys2Proof
end

