-- ==== Sys2Proof/Machine/Operands.lean ====
section
/-! DEFINITION. The operand forms: a stored register by its name, the data byte of a STORE, and the window offset of a
bus address. -/

namespace Sys2Proof.Machine

/-- The byte a register file holds under a name (10_state.md R20). -/
def Regs.get (r : Reg) (f : Regs) : Byte :=
  match r with
  | .rbr => f.rbr
  | .thr => f.thr
  | .ier => f.ier
  | .lcr => f.lcr
  | .mcr => f.mcr
  | .scr => f.scr
  | .dll => f.dll
  | .dlm => f.dlm

/-- A register file with one byte replaced. -/
def Regs.set (r : Reg) (v : Byte) (f : Regs) : Regs :=
  match r with
  | .rbr => { f with rbr := v }
  | .thr => { f with thr := v }
  | .ier => { f with ier := v }
  | .lcr => { f with lcr := v }
  | .mcr => { f with mcr := v }
  | .scr => { f with scr := v }
  | .dll => { f with dll := v }
  | .dlm => { f with dlm := v }

/-- `x[NAME]` (00_scope.md R8). -/
def State.read (r : Reg) (s : State) : Byte := s.regs.get r

/-- `x[NAME] <- v` (00_scope.md R8). -/
def State.write (r : Reg) (v : Byte) (s : State) : State := { s with regs := s.regs.set r v }

/-- The only transform a STORE applies to its data byte, `v & IER_MASK` (30_encoding.md R73, 41_stores.md R122). -/
def maskIer (c : Codes) (v : Byte) : Byte := v &&& c.ierMask

/-- The window offset of a bus address, where it has one (20_memory.md R50, R52). -/
def windowOffset (c : Config) (addr : Nat) : Option Offset :=
  if c.inWindow addr then some (BitVec.ofNat 3 (addr - c.uartBase)) else none

/-- The request a bus access arrives as (20_memory.md R51), or why it never reaches the block: another width (R54), then
an address outside the window (R52). -/
def busRequest (c : Config) : BusAccess → Except Refusal Request
  | .read addr size =>
    if size = 1 then
      match windowOffset c addr with
      | some off => .ok (.load off)
      | none => .error (.outsideWindow addr)
    else .error (.accessWidth size)
  | .write addr bytes =>
    match bytes with
    | [v] =>
      match windowOffset c addr with
      | some off => .ok (.store off v)
      | none => .error (.outsideWindow addr)
    | other => .error (.accessWidth other.length)

end Sys2Proof.Machine
end

