-- ==== Sys2Proof/Machine/Flags.lean ====
section
/-! DEFINITION. The derived values: DLAB, has_input, the status registers IIR, LSR and MSR, and the interrupt condition.
The numeric codes are the parameters of the configuration (00_scope.md R5; log 5). -/

namespace Sys2Proof.Machine

/-- Whether a register has a bit of a mask set. -/
def bitSet (v mask : Byte) : Bool := v &&& mask != 0

/-- `dlab`: the bit `LCR_DLAB` of LCR (00_scope.md R8, 10_state.md R23). -/
def State.dlab (s : State) : Bool := bitSet (s.read .lcr) s.cfg.codes.lcrDlab

/-- `has_input`: the receive FIFO is not empty (00_scope.md R8, 43_host_port.md R158). -/
def State.hasInput (s : State) : Bool := !s.rx.isEmpty

/-- IIR as a LOAD computes it, from the receive FIFO alone (10_state.md R25). -/
def State.iir (s : State) : Byte :=
  if s.hasInput then s.cfg.codes.iirRxReady else s.cfg.codes.iirTxReady

/-- LSR as a LOAD computes it (10_state.md R28). -/
def State.lsr (s : State) : Byte :=
  s.cfg.codes.lsrThrEmpty ||| (if s.hasInput then s.cfg.codes.lsrDataAvailable else 0)

/-- MSR, a constant of the configuration (10_state.md R29). -/
def State.msr (s : State) : Byte := s.cfg.codes.msrCarrierDetect ||| s.cfg.codes.msrDataSetReady

/-- The interrupt condition, the bit `IER_ERBFI` of IER and has_input (42_irq_service.md R143). -/
def State.irqCond (s : State) : Bool := bitSet (s.read .ier) s.cfg.codes.ierErbfi && s.hasInput

/-- The receive FIFO has no free space; never with an unbounded `RX_DEPTH` (43_host_port.md R150). -/
def State.rxFull (s : State) : Bool :=
  match s.cfg.rxDepth with
  | none => false
  | some n => decide (n ≤ s.rx.length)

end Sys2Proof.Machine
end

