-- ==== Sys2Proof/Machine/Ops.lean ====
section
/-! DEFINITION. The named operations the meanings are built from: one update per field, the lifecycle precondition, the
FIFO operations, events, the trace step, and raising DeviceAbort. -/

namespace Sys2Proof.Machine

/-! ## One update per field -/

/-- Replaces the whole register file. -/
def State.setRegs (f : Regs) (s : State) : State := { s with regs := f }

/-- Replaces the receive FIFO. -/
def State.setRx (q : List Byte) (s : State) : State := { s with rx := q }

/-- Replaces the transmit FIFO. -/
def State.setTx (q : List Byte) (s : State) : State := { s with tx := q }

/-- Sets the suspended flag (10_state.md R34). -/
def State.setSuspended (b : Bool) (s : State) : State := { s with suspended := b }

/-- Sets the device's life (10_state.md R35). -/
def State.setLife (l : Life) (s : State) : State := { s with life := l }

/-- Appends events to the history, in order (00_scope.md R9). -/
def State.emitAll (es : List Event) (s : State) : State := { s with events := s.events ++ es }

/-- Sets what the operation returns to its caller (10_state.md R37). -/
def State.setReturned (v : Option Byte) (s : State) : State := { s with returned := v }

/-- Sets the configuration (70_reset_and_hazards.md R190). -/
def State.setCfg (c : Config) (s : State) : State := { s with cfg := c }

/-- Sets the draws of the operation to run. -/
def State.setDraw (d : Draw) (s : State) : State := { s with draw := d }

/-- Replaces the inputs still to come. -/
def State.setSchedule (l : List Input) (s : State) : State := { s with schedule := l }

/-! ## Events and the trace step -/

/-- `emit E` (00_scope.md R8). -/
def State.emit (e : Event) (s : State) : State := s.emitAll [e]

/-- The events of the trace step: one record when `TRACE_ENABLED`, else nothing (40_loads.md R110, 41_stores.md R130). -/
def traceEvents (c : Config) (kind : AccessKind) (off : Offset) (v : Byte) : List Event :=
  if c.traceEnabled then [.trace kind off v] else []

/-- `trace(kind, off, v)` (40_loads.md R110, 41_stores.md R130). -/
def State.trace (kind : AccessKind) (off : Offset) (v : Byte) (s : State) : State :=
  s.emitAll (traceEvents s.cfg kind off v)

/-! ## How operations begin and end -/

/-- The lifecycle precondition: an operation other than CONSTRUCT requires `Running` (30_encoding.md R93). -/
def whenRunning (s : State) (op : State → Result) : Result :=
  match s.life with
  | .running => op s
  | .stopped => .refused .deviceStopped
  | .unconstructed => .refused .notConstructed
  | .aborted => .fault .deviceAborted

/-- An operation that returns nothing is done. -/
def finish (s : State) : Result := .next (s.setReturned none)

/-- The end of every LOAD: the trace step, then the return of the byte (40_loads.md). -/
def finishLoad (off : Offset) (v : Byte) (s : State) : Result :=
  .next ((s.trace .load off v).setReturned (some v))

/-- The end of every STORE: the trace step; nothing is returned (41_stores.md). -/
def finishStore (off : Offset) (v : Byte) (s : State) : Result := finish (s.trace .store off v)

/-- A LOAD of a stored register at an offset (40_loads.md). -/
def loadReg (r : Reg) (off : Offset) (s : State) : Result :=
  whenRunning s fun s => finishLoad off (s.read r) s

/-- A STORE at an offset that writes one register with `stored`; the trace carries the byte as written
(41_stores.md R122, decision D22). -/
def storeReg (r : Reg) (off : Offset) (stored v : Byte) (s : State) : Result :=
  whenRunning s fun s => finishStore off v (s.write r stored)

/-- A STORE at an offset that is accepted and changes no state (41_stores.md R124, R127, R128). -/
def storeDiscarded (off : Offset) (v : Byte) (s : State) : Result :=
  whenRunning s fun s => finishStore off v s

/-! ## The FIFOs -/

/-- `rx.push(b)` (00_scope.md R8). -/
def State.rxPush (b : Byte) (s : State) : State := s.setRx (s.rx ++ [b])

/-- `if not rx.empty then x[RBR] <- rx.pop()` (40_loads.md R100). -/
def State.latchRbr (s : State) : State :=
  match s.rx with
  | [] => s
  | b :: rest => (s.write .rbr b).setRx rest

/-- `tx.push(v)`, the source's `write_one` (43_host_port.md R158). -/
def State.writeOne (v : Byte) (s : State) : State := s.setTx (s.tx ++ [v])

/-- The helper contract `read_one()`: the oldest byte, or the sentinel 0 and no change (43_host_port.md R158). -/
def State.readOne (s : State) : Byte × State :=
  match s.rx with
  | [] => (0, s)
  | b :: rest => (b, s.setRx rest)

/-! ## Faults -/

/-- `raise DeviceAbort(reason)`: emit Abort, then `life <- Aborted` (60_exceptions.md R172; log 10). -/
def raiseDeviceAbort (reason : AbortReason) (s : State) : Result :=
  finish ((s.emit (.abort reason)).setLife .aborted)

end Sys2Proof.Machine
end

