-- ==== Sys2Proof/Machine/HostPort.lean ====
section
/-! DEFINITION. The host port: the bridge's steps, the suspended flag, and teardown (43_host_port.md; the bridge's fault
step, 60_exceptions.md R172). -/

namespace Sys2Proof.Machine

/-- HOST_RX: pushed when not suspended (43_host_port.md R150), discarded when suspended (R151). Into a full FIFO it has no
step (R150; log 9). -/
def execHostRx (b : Byte) (s : State) : Result :=
  whenRunning s fun s =>
    if s.suspended then finish s
    else if s.rxFull then .refused .rxFull
    else finish (s.rxPush b)

/-- HOST_TX_POP: the oldest transmit byte goes to the host, and is lost when the host write fails. With `tx` empty it has
no step (43_host_port.md R152; log 9). -/
def execHostTxPop (s : State) : Result :=
  whenRunning s fun s =>
    match s.tx with
    | [] => .refused .txEmpty
    | b :: rest =>
      finish (if s.draw.ok then (s.setTx rest).emit (.hostOut b) else s.setTx rest)

/-- SUSPEND (43_host_port.md R154). -/
def execSuspend (s : State) : Result := whenRunning s fun s => finish (s.setSuspended true)

/-- RESUME (43_host_port.md R155). -/
def execResume (s : State) : Result := whenRunning s fun s => finish (s.setSuspended false)

/-- STOP: the drawn prefix of `tx` is relayed, both FIFOs are emptied (43_host_port.md R156; log 15). -/
def execStop (s : State) : Result :=
  whenRunning s fun s =>
    finish ((((s.emitAll ((s.tx.take s.draw.relayed).map .hostOut)).setTx []).setRx []).setLife .stopped)

/-- `bridge_fault`: a fatal failure of the bridge's wait primitive, enabled in `Running` (60_exceptions.md R172). -/
def execBridgeFault (s : State) : Result := whenRunning s fun s => raiseDeviceAbort .wait s

end Sys2Proof.Machine
end

