-- ==== Sys2Proof/Machine/Loads.lean ====
section
/-! DEFINITION. The register reads (40_loads.md). -/

namespace Sys2Proof.Machine

/-- 40_loads.md R100. -/
def execLoadRbr (s : State) : Result :=
  whenRunning s fun s => finishLoad 0 (s.latchRbr.read .rbr) s.latchRbr

/-- 40_loads.md R101. -/
def execLoadDll (s : State) : Result := loadReg .dll 0 s

/-- 40_loads.md R102. -/
def execLoadIer (s : State) : Result := loadReg .ier 1 s

/-- 40_loads.md R103. -/
def execLoadDlm (s : State) : Result := loadReg .dlm 1 s

/-- 40_loads.md R104. -/
def execLoadIir (s : State) : Result := whenRunning s fun s => finishLoad 2 s.iir s

/-- 40_loads.md R105. -/
def execLoadLcr (s : State) : Result := loadReg .lcr 3 s

/-- 40_loads.md R106. -/
def execLoadMcr (s : State) : Result := loadReg .mcr 4 s

/-- 40_loads.md R107. -/
def execLoadLsr (s : State) : Result := whenRunning s fun s => finishLoad 5 s.lsr s

/-- 40_loads.md R108. -/
def execLoadMsr (s : State) : Result := whenRunning s fun s => finishLoad 6 s.msr s

/-- 40_loads.md R109. -/
def execLoadScr (s : State) : Result := loadReg .scr 7 s

end Sys2Proof.Machine
end

