-- ==== Sys2Proof/Machine/Reset.lean ====
section
/-! DEFINITION. CONSTRUCT (70_reset_and_hazards.md R190). -/

namespace Sys2Proof.Machine

/-- The registers CONSTRUCT leaves (10_state.md R38). -/
def constructedRegs (d : Draw) : Regs where
  rbr := d.resetRbr
  thr := d.resetThr
  ier := 0x00
  lcr := 0x00
  mcr := 0x00
  scr := d.resetScr
  dll := d.resetDll
  dlm := d.resetDlm

/-- The device CONSTRUCT leaves: every piece of state but the outputs, and the operand as its configuration
(70_reset_and_hazards.md R190; log 6). -/
def State.constructed (s : State) : State :=
  (((((s.setCfg s.draw.config).setRegs (constructedRegs s.draw)).setRx []).setTx []).setSuspended false).setLife .running

/-- The construction itself, with its fatal failure (70_reset_and_hazards.md R190, 60_exceptions.md R172). An operand that
00_scope.md R5 does not allow has no step (log 22). -/
def construct (s : State) : Result :=
  if s.draw.config.wf then
    if s.draw.fatal then raiseDeviceAbort .startup s else finish s.constructed
  else .refused .illegalConfiguration

/-- CONSTRUCT: allowed before the first construction and in `Stopped`; `Aborted` is final (30_encoding.md R93,
90_conflicts.md C11; log 8). -/
def execConstruct (s : State) : Result :=
  match s.life with
  | .unconstructed => construct s
  | .stopped => construct s
  | .running => .refused .alreadyConstructed
  | .aborted => .fault .deviceAborted

end Sys2Proof.Machine
end

