-- ==== Sys2Proof/Machine/Service.lean ====
section
/-! DEFINITION. The interrupt policy, uart_irq_controller (42_irq_service.md). -/

namespace Sys2Proof.Machine

/-- SERVICE: one signal when the condition holds, else none (42_irq_service.md R140). -/
def execService (s : State) : Result :=
  whenRunning s fun s => finish (if s.irqCond then s.emit (.irqSignal s.cfg.irqLine) else s)

end Sys2Proof.Machine
end

