-- ==== Sys2Proof/Machine/Stores.lean ====
section
/-! DEFINITION. The register writes (41_stores.md). -/

namespace Sys2Proof.Machine

/-- 41_stores.md R120. -/
def execStoreThr (v : Byte) (s : State) : Result :=
  whenRunning s fun s => finishStore 0 v ((s.write .thr v).writeOne v)

/-- 41_stores.md R121. -/
def execStoreDll (v : Byte) (s : State) : Result := storeReg .dll 0 v v s

/-- 41_stores.md R122. -/
def execStoreIer (v : Byte) (s : State) : Result := storeReg .ier 1 (maskIer s.cfg.codes v) v s

/-- 41_stores.md R123. -/
def execStoreDlm (v : Byte) (s : State) : Result := storeReg .dlm 1 v v s

/-- 41_stores.md R124. -/
def execStoreFcr (v : Byte) (s : State) : Result := storeDiscarded 2 v s

/-- 41_stores.md R125. -/
def execStoreLcr (v : Byte) (s : State) : Result := storeReg .lcr 3 v v s

/-- 41_stores.md R126. -/
def execStoreMcr (v : Byte) (s : State) : Result := storeReg .mcr 4 v v s

/-- 41_stores.md R127. -/
def execStoreLsr (v : Byte) (s : State) : Result := storeDiscarded 5 v s

/-- 41_stores.md R128. -/
def execStoreMsr (v : Byte) (s : State) : Result := storeDiscarded 6 v s

/-- 41_stores.md R129. -/
def execStoreScr (v : Byte) (s : State) : Result := storeReg .scr 7 v v s

end Sys2Proof.Machine
end

