-- ==== Sys2Proof/Machine/Dispatch.lean ====
section
/-! DEFINITION. The meaning of every operation. -/

namespace Sys2Proof.Machine

def exec (i : Instr) (s : State) : Host.Outcome State Fault Refusal :=
  match i with
  -- 40_loads.md
  | .loadRbr => Sys2Proof.Machine.execLoadRbr s
  | .loadDll => Sys2Proof.Machine.execLoadDll s
  | .loadIer => Sys2Proof.Machine.execLoadIer s
  | .loadDlm => Sys2Proof.Machine.execLoadDlm s
  | .loadIir => Sys2Proof.Machine.execLoadIir s
  | .loadLcr => Sys2Proof.Machine.execLoadLcr s
  | .loadMcr => Sys2Proof.Machine.execLoadMcr s
  | .loadLsr => Sys2Proof.Machine.execLoadLsr s
  | .loadMsr => Sys2Proof.Machine.execLoadMsr s
  | .loadScr => Sys2Proof.Machine.execLoadScr s
  -- 41_stores.md
  | .storeThr v => Sys2Proof.Machine.execStoreThr v s
  | .storeDll v => Sys2Proof.Machine.execStoreDll v s
  | .storeIer v => Sys2Proof.Machine.execStoreIer v s
  | .storeDlm v => Sys2Proof.Machine.execStoreDlm v s
  | .storeFcr v => Sys2Proof.Machine.execStoreFcr v s
  | .storeLcr v => Sys2Proof.Machine.execStoreLcr v s
  | .storeMcr v => Sys2Proof.Machine.execStoreMcr v s
  | .storeLsr v => Sys2Proof.Machine.execStoreLsr v s
  | .storeMsr v => Sys2Proof.Machine.execStoreMsr v s
  | .storeScr v => Sys2Proof.Machine.execStoreScr v s
  -- 42_irq_service.md, 43_host_port.md, 70_reset_and_hazards.md
  | .service => Sys2Proof.Machine.execService s
  | .hostRx b => Sys2Proof.Machine.execHostRx b s
  | .hostTxPop => Sys2Proof.Machine.execHostTxPop s
  | .suspend => Sys2Proof.Machine.execSuspend s
  | .resume => Sys2Proof.Machine.execResume s
  | .construct => Sys2Proof.Machine.execConstruct s
  | .stop => Sys2Proof.Machine.execStop s

end Sys2Proof.Machine
end

