-- ==== Sys2Proof/Decode.lean ====
section
/-! DEFINITION. The decoder of the request word and the decode key (30_encoding.md R70 to R95), total, rejecting the
reserved kinds by name; then the encoder (R91, R97), the opcode table's patterns, and the pseudo-operations (R98). -/

namespace Sys2Proof

/-- Bits 14:11 of a request word (30_encoding.md R90). -/
def RequestWord.kind (w : RequestWord) : Kind := w.extractLsb' 11 4

/-- Bits 10:8 of a request word (30_encoding.md R90). -/
def RequestWord.off (w : RequestWord) : Offset := w.extractLsb' 8 3

/-- Bits 7:0 of a request word (30_encoding.md R90). -/
def RequestWord.data (w : RequestWord) : Byte := w.extractLsb' 0 8

/-- The request part of a decode key, bits 14:0 (30_encoding.md R90). -/
def DecodeKey.request (k : DecodeKey) : RequestWord := k.extractLsb' 0 15

/-- Bit 15 of a decode key: DLAB as sampled at the step (30_encoding.md R90). -/
def DecodeKey.dlab (k : DecodeKey) : Bool := k.getLsbD 15

/-- What the decoder answers: an operation, or the refusal of a reserved kind (30_encoding.md R94). -/
inductive Decoded where
  | ok (i : Instr)
  | reservedKind (k : Kind)
deriving DecidableEq, Repr

/-- The unbanked column of the LOAD decode table, by offset (30_encoding.md R71, DLAB = 0). -/
def loadAt (off : Offset) : Instr :=
  match off.toFin with
  | 0 => .loadRbr
  | 1 => .loadIer
  | 2 => .loadIir
  | 3 => .loadLcr
  | 4 => .loadMcr
  | 5 => .loadLsr
  | 6 => .loadMsr
  | 7 => .loadScr

/-- The unbanked column of the STORE decode table, by offset (30_encoding.md R71, DLAB = 0). -/
def storeAt (off : Offset) (v : Byte) : Instr :=
  match off.toFin with
  | 0 => .storeThr v
  | 1 => .storeIer v
  | 2 => .storeFcr v
  | 3 => .storeLcr v
  | 4 => .storeMcr v
  | 5 => .storeLsr v
  | 6 => .storeMsr v
  | 7 => .storeScr v

/-- The register a LOAD reaches; banking is checked before the offset dispatch (30_encoding.md R72). -/
def selectLoad (dlab : Bool) (off : Offset) : Instr :=
  if dlab = true ∧ off = 0 then .loadDll
  else if dlab = true ∧ off = 1 then .loadDlm
  else loadAt off

/-- The register a STORE reaches; banking is checked before the offset dispatch (30_encoding.md R72). -/
def selectStore (dlab : Bool) (off : Offset) (v : Byte) : Instr :=
  if dlab = true ∧ off = 0 then .storeDll v
  else if dlab = true ∧ off = 1 then .storeDlm v
  else storeAt off v

/-- The operation a request is under a DLAB value (30_encoding.md R92). -/
def Request.select (dlab : Bool) : Request → Instr
  | .load off => selectLoad dlab off
  | .store off v => selectStore dlab off v
  | .service => .service
  | .hostRx b => .hostRx b
  | .hostTxPop => .hostTxPop
  | .suspend => .suspend
  | .resume => .resume
  | .construct => .construct
  | .stop => .stop

/-- The request a word spells; `none` for a reserved kind, 0b1001 to
0b1111 (30_encoding.md R91, R94). Fields a kind does not use are
ignored (R95). -/
def parseRequest (w : RequestWord) : Option Request :=
  match w.kind.toNat with
  | 0 => some (.load w.off)
  | 1 => some (.store w.off w.data)
  | 2 => some .service
  | 3 => some (.hostRx w.data)
  | 4 => some .hostTxPop
  | 5 => some .suspend
  | 6 => some .resume
  | 7 => some .construct
  | 8 => some .stop
  | _ => none

/-- The decode algorithm of 30_encoding.md R92, total on every request word. -/
def decode (w : RequestWord) (dlab : Bool) : Decoded :=
  match parseRequest w with
  | some r => .ok (r.select dlab)
  | none => .reservedKind w.kind

/-- The decoder over the decode key, the form `opcode_table.json` is written in (30_encoding.md R90). -/
def decodeKey (k : DecodeKey) : Decoded := decode k.request k.dlab

/-- The host's question: the instruction of a table row's bits. Every row has 16 bits, the decode key, so other widths
spell nothing. -/
def decodeTableWord (nbits w : Nat) : Option Instr :=
  if nbits = 16 ∧ w < 2 ^ 16 then
    match decodeKey (BitVec.ofNat 16 w) with
    | .ok i => some i
    | .reservedKind _ => none
  else none

/-- The agent that issues an operation (30_encoding.md R91, 10_state.md R41). -/
def Instr.agent : Instr → Agent
  | .hostRx _ => .bridge
  | .hostTxPop => .bridge
  | .loadRbr => .main
  | .loadDll => .main
  | .loadIer => .main
  | .loadDlm => .main
  | .loadIir => .main
  | .loadLcr => .main
  | .loadMcr => .main
  | .loadLsr => .main
  | .loadMsr => .main
  | .loadScr => .main
  | .storeThr _ => .main
  | .storeDll _ => .main
  | .storeIer _ => .main
  | .storeDlm _ => .main
  | .storeFcr _ => .main
  | .storeLcr _ => .main
  | .storeMcr _ => .main
  | .storeLsr _ => .main
  | .storeMsr _ => .main
  | .storeScr _ => .main
  | .service => .main
  | .suspend => .main
  | .resume => .main
  | .construct => .main
  | .stop => .main

/-! ## The encoder -/

/-- A request word from its three fields (30_encoding.md R90). -/
def requestWord (kind : Kind) (off : Offset) (data : Byte) : RequestWord := kind ++ off ++ data

/-- The word of a request; unused fields are written as 0 (30_encoding.md R95, R97). -/
def Request.word : Request → RequestWord
  | .load off => requestWord 0b0000 off 0
  | .store off v => requestWord 0b0001 off v
  | .service => requestWord 0b0010 0 0
  | .hostRx b => requestWord 0b0011 0 b
  | .hostTxPop => requestWord 0b0100 0 0
  | .suspend => requestWord 0b0101 0 0
  | .resume => requestWord 0b0110 0 0
  | .construct => requestWord 0b0111 0 0
  | .stop => requestWord 0b1000 0 0

/-- The request that presents an operation: its direction and offset by 30_encoding.md R71, or its kind by R91. -/
def Instr.request : Instr → Request
  | .loadRbr => .load 0
  | .loadDll => .load 0
  | .loadIer => .load 1
  | .loadDlm => .load 1
  | .loadIir => .load 2
  | .loadLcr => .load 3
  | .loadMcr => .load 4
  | .loadLsr => .load 5
  | .loadMsr => .load 6
  | .loadScr => .load 7
  | .storeThr v => .store 0 v
  | .storeDll v => .store 0 v
  | .storeIer v => .store 1 v
  | .storeDlm v => .store 1 v
  | .storeFcr v => .store 2 v
  | .storeLcr v => .store 3 v
  | .storeMcr v => .store 4 v
  | .storeLsr v => .store 5 v
  | .storeMsr v => .store 6 v
  | .storeScr v => .store 7 v
  | .service => .service
  | .hostRx b => .hostRx b
  | .hostTxPop => .hostTxPop
  | .suspend => .suspend
  | .resume => .resume
  | .construct => .construct
  | .stop => .stop

/-- The request word of an operation. -/
def encode (i : Instr) : RequestWord := i.request.word

/-- The decode key of an operation under a DLAB value: `D : request` (30_encoding.md R90). -/
def encodeKey (dlab : Bool) (i : Instr) : DecodeKey := BitVec.ofBool dlab ++ encode i

/-! ## The patterns of opcode_table.json -/

/-- A row's "match" and "mask" over the decode key. -/
structure Pattern where
  bits : DecodeKey
  mask : DecodeKey
deriving DecidableEq, Repr

/-- A key matches a pattern when the masked bits agree. -/
def Pattern.fits (p : Pattern) (k : DecodeKey) : Bool := k &&& p.mask == p.bits

/-- The row of spec/opcode_table.json that an operation stands for. -/
def Instr.pattern : Instr → Pattern
  | .loadRbr => ⟨0x0000, 0xFF00⟩
  | .loadDll => ⟨0x8000, 0xFF00⟩
  | .loadIer => ⟨0x0100, 0xFF00⟩
  | .loadDlm => ⟨0x8100, 0xFF00⟩
  | .loadIir => ⟨0x0200, 0x7F00⟩
  | .loadLcr => ⟨0x0300, 0x7F00⟩
  | .loadMcr => ⟨0x0400, 0x7F00⟩
  | .loadLsr => ⟨0x0500, 0x7F00⟩
  | .loadMsr => ⟨0x0600, 0x7F00⟩
  | .loadScr => ⟨0x0700, 0x7F00⟩
  | .storeThr _ => ⟨0x0800, 0xFF00⟩
  | .storeDll _ => ⟨0x8800, 0xFF00⟩
  | .storeIer _ => ⟨0x0900, 0xFF00⟩
  | .storeDlm _ => ⟨0x8900, 0xFF00⟩
  | .storeFcr _ => ⟨0x0A00, 0x7F00⟩
  | .storeLcr _ => ⟨0x0B00, 0x7F00⟩
  | .storeMcr _ => ⟨0x0C00, 0x7F00⟩
  | .storeLsr _ => ⟨0x0D00, 0x7F00⟩
  | .storeMsr _ => ⟨0x0E00, 0x7F00⟩
  | .storeScr _ => ⟨0x0F00, 0x7F00⟩
  | .service => ⟨0x1000, 0x7800⟩
  | .hostRx _ => ⟨0x1800, 0x7800⟩
  | .hostTxPop => ⟨0x2000, 0x7800⟩
  | .suspend => ⟨0x2800, 0x7800⟩
  | .resume => ⟨0x3000, 0x7800⟩
  | .construct => ⟨0x3800, 0x7800⟩
  | .stop => ⟨0x4000, 0x7800⟩

/-- The data operand of an operation that has one: the `v` field, bits 7:0 (30_encoding.md R90). -/
def Instr.data? : Instr → Option Byte
  | .storeThr v => some v
  | .storeDll v => some v
  | .storeIer v => some v
  | .storeDlm v => some v
  | .storeFcr v => some v
  | .storeLcr v => some v
  | .storeMcr v => some v
  | .storeLsr v => some v
  | .storeMsr v => some v
  | .storeScr v => some v
  | .hostRx b => some b
  | .loadRbr => none
  | .loadDll => none
  | .loadIer => none
  | .loadDlm => none
  | .loadIir => none
  | .loadLcr => none
  | .loadMcr => none
  | .loadLsr => none
  | .loadMsr => none
  | .loadScr => none
  | .service => none
  | .hostTxPop => none
  | .suspend => none
  | .resume => none
  | .construct => none
  | .stop => none

/-! ## The pseudo-operations (30_encoding.md R98) -/

/-- `getc`: `lb 0`. -/
def pseudoGetc : List Request := [.load 0]

/-- `putc v`: `sb 0, v`. -/
def pseudoPutc (v : Byte) : List Request := [.store 0 v]

/-- `setdiv lcr, m, l`: set DLAB, write DLM then DLL, clear DLAB. -/
def pseudoSetdiv (lcr m l : Byte) : List Request :=
  [.store 3 (lcr ||| 0x80), .store 1 m, .store 0 l, .store 3 (lcr &&& 0x7F)]

/-- `rx_enable`: `sb 1, 0x01`. -/
def pseudoRxEnable : List Request := [.store 1 0x01]

end Sys2Proof
end

