-- ==== Sys2Proof/Machine/Fetch.lean ====
section
/-! DEFINITION. Taking the next input: the request word it arrives as, decoded under the DLAB value of the state as it
stands before the step (30_encoding.md R72, R92). -/

namespace Sys2Proof.Machine

/-- What the next input asks for, with the state the step starts from. -/
inductive Fetched where
  /-- An operation of the table. -/
  | op (i : Instr) (s : State)
  /-- The BRIDGE fault step. -/
  | bridgeFault (s : State)
  /-- The input has no step. -/
  | refused (r : Refusal)
deriving DecidableEq, Repr

/-- A decoded word, run from the given state. -/
def fetchWord (w : RequestWord) (s : State) : Fetched :=
  match decode w s.dlab with
  | .ok i => .op i s
  | .reservedKind k => .refused (.reservedKind k)

/-- One input: a request brings its draws; a bus access in the window arrives as the LOAD or STORE word of its offset
(20_memory.md R51). -/
def fetchInput (input : Input) (s : State) : Fetched :=
  match input with
  | .request w d => fetchWord w (s.setDraw d)
  | .bus a =>
    match busRequest s.cfg a with
    | .ok r => fetchWord r.word s
    | .error e => .refused e
  | .bridgeFault => .bridgeFault s

/-- The first input of the schedule, taken off it. -/
def fetch (s : State) : Fetched :=
  match s.schedule with
  | [] => .refused .noInput
  | input :: rest => fetchInput input (s.setSchedule rest)

/-- LCR with its DLAB bit replaced (10_state.md R23). -/
def withDlabBit (c : Codes) (dlab : Bool) (lcr : Byte) : Byte :=
  if dlab then lcr ||| c.lcrDlab else lcr &&& ~~~c.lcrDlab

/-- Presents a decode key as the next input: its request word comes first in the schedule, with the draws the state holds,
and LCR bit 7 is the key's bit 15, since DLAB is sampled from the state (30_encoding.md R90). -/
def State.present (k : DecodeKey) (s : State) : State :=
  (s.write .lcr (withDlabBit s.cfg.codes k.dlab (s.read .lcr))).setSchedule (.request k.request s.draw :: s.schedule)

end Sys2Proof.Machine
end

