-- ==== Sys2Proof/Machine/Step.lean ====
section
/-! DEFINITION. One step: the next input of the schedule, run to its end (00_scope.md R9, 20_memory.md R61). -/

namespace Sys2Proof.Machine

/-- One atomic step of either agent. -/
def step (s : State) : Host.Outcome State Fault Refusal :=
  match fetch s with
  | .op i t => exec i t
  | .bridgeFault t => execBridgeFault t
  | .refused r => .refused r

/-- The state with a table row's bits presented as the next input; the low 16 bits are the decode key. -/
def State.withFetchWord (s : State) (_nbits w : Nat) : State := s.present (BitVec.ofNat 16 w)

end Sys2Proof.Machine
end

