-- ==== Sys2Proof/Safety.lean ====
section
/-! DEFINITION. The terms claims are stated in: frames, the invariants, what the history shows the host, and what a run
pushes, pops and returns. -/

namespace Sys2Proof.Machine

/-! ## Outcomes -/

/-- The next state of an outcome, if it is one. -/
def next? : Result → Option State
  | .next t => some t
  | .fault _ => none
  | .refused _ => none

/-- Two outcomes of one kind: related next states, or the same fault, or the same refusal. -/
def SameOutcome (R : State → State → Prop) : Result → Result → Prop
  | .next a, .next b => R a b
  | .fault a, .fault b => a = b
  | .refused a, .refused b => a = b
  | _, _ => False

/-! ## Frames -/

/-- The parts of the state. -/
inductive Part where
  | reg (r : Reg)
  | rx | tx | suspended | life | events | returned | cfg | draw | schedule
deriving DecidableEq, Repr

/-- Two states agree on a part. -/
def Part.same (s t : State) : Part → Prop
  | .reg r => t.read r = s.read r
  | .rx => t.rx = s.rx
  | .tx => t.tx = s.tx
  | .suspended => t.suspended = s.suspended
  | .life => t.life = s.life
  | .events => t.events = s.events
  | .returned => t.returned = s.returned
  | .cfg => t.cfg = s.cfg
  | .draw => t.draw = s.draw
  | .schedule => t.schedule = s.schedule

/-- Every part is unchanged but the listed ones. -/
def Frame (written : List Part) (s t : State) : Prop := ∀ p : Part, p ∉ written → p.same s t

/-! ## Invariants -/

/-- The configuration is legal (00_scope.md R5), IER bits 7:4 are 0, and the receive FIFO is within its capacity
(10_state.md R39). -/
def State.Inv (s : State) : Prop :=
  s.cfg.wf = true ∧ s.read .ier &&& 0xF0 = 0 ∧ ∀ depth, s.cfg.rxDepth = some depth → s.rx.length ≤ depth

/-- A torn-down device holds no byte (43_host_port.md R156). -/
def State.StoppedIsEmpty (s : State) : Prop := s.life = .stopped → s.rx = [] ∧ s.tx = []

/-- The device is aborted exactly when the history shows an Abort: the premise "no Abort" of 60_exceptions.md R172 can be
read off either. -/
def State.AbortIsRecorded (s : State) : Prop := s.life = .aborted ↔ ∃ reason, Event.abort reason ∈ s.events

/-! ## What the history shows -/

/-- Whether an event is a Trace record, on which no claim may depend (40_loads.md R110). -/
def Event.isTrace : Event → Bool
  | .trace _ _ _ => true
  | .irqSignal _ => false
  | .hostOut _ => false
  | .abort _ => false

/-- The byte of a HostOut event. -/
def Event.hostByte? : Event → Option Byte
  | .hostOut b => some b
  | .irqSignal _ => none
  | .trace _ _ _ => none
  | .abort _ => none

/-- The history without Trace records. -/
def untraced (es : List Event) : List Event := es.filter (! ·.isTrace)

/-- The bytes delivered to the host, in order. -/
def hostOutput (es : List Event) : List Byte := es.filterMap Event.hostByte?

/-- Two states that differ at most in `TRACE_ENABLED` and in Trace records. -/
def EqualButTrace (s t : State) : Prop :=
  Frame [.events, .cfg] s t ∧ untraced t.events = untraced s.events ∧
    t.cfg = { s.cfg with traceEnabled := t.cfg.traceEnabled }

/-! ## Runs -/

/-- `n` steps, stopping at the first fault or refusal. -/
def run : Nat → State → Result
  | 0, s => .next s
  | n + 1, s =>
    match step s with
    | .next t => run n t
    | .fault r => .fault r
    | .refused r => .refused r

/-- The bytes a function of the state collects over the first `n` steps that are taken. -/
def along (f : State → List Byte) : Nat → State → List Byte
  | 0, _ => []
  | n + 1, s =>
    match step s with
    | .next t => f s ++ along f n t
    | .fault _ => []
    | .refused _ => []

/-- A property of the operation about to run (with the state it runs from) holds at each of the first `n` steps that are
taken. -/
def Throughout (p : Instr → State → Prop) : Nat → State → Prop
  | 0, _ => True
  | n + 1, s =>
    (∀ i t, fetch s = .op i t → p i t) ∧
      match step s with
      | .next t => Throughout p n t
      | .fault _ => True
      | .refused _ => True

/-- The operation neither tears the device down nor makes a new one. -/
def keepsDevice (i : Instr) (_ : State) : Prop := i ≠ .stop ∧ i ≠ .construct

/-- The host accepts the byte, where the operation offers one: "every ok = true" (90_conflicts.md C5). -/
def hostAccepts (i : Instr) (s : State) : Prop := i = .hostTxPop → s.draw.ok = true

/-- The byte the next step appends to the receive FIFO (43_host_port.md R150, R151). -/
def rxAppended (s : State) : List Byte :=
  match fetch s with
  | .op (.hostRx b) t => if t.suspended then [] else [b]
  | _ => []

/-- The byte the next step returns to the guest, when that step is a LOAD of RBR that finds the receive FIFO non-empty. -/
def rbrDelivered (s : State) : List Byte :=
  match fetch s, step s with
  | .op .loadRbr t, .next u => if t.hasInput then u.returned.toList else []
  | _, _ => []

/-- The byte the next step takes from the guest, when that step is a STORE of THR. -/
def thrStored (s : State) : List Byte :=
  match fetch s with
  | .op (.storeThr v) _ => [v]
  | _ => []

end Sys2Proof.Machine
end

