-- ==== Sys2Proof/Certificates/Slice0/Obligations.lean ====
section
/-! DEFINITION. The statements for the provers, from the numbered rules of spec/. -/

open Sys2Proof Sys2Proof.Machine

/-! ## Encoding -/

/-- Decoding the word of an operation under a DLAB value that reaches it gives the operation back, from the request word
and from the decode key. Rests on the spec's own encoding (decision D1 of 92_eei_decisions.md). -/
def Obligations.DecodeOfEncodeIsIdentity : Prop :=
  ∀ (dlab : Bool) (i : Instr), i.wf dlab = true →
    decode (encode i) dlab = .ok i ∧ decodeKey (encodeKey dlab i) = .ok i

/-- A decode key decodes to an operation exactly when it fits that operation's row of opcode_table.json and carries its
data byte. Rests on decision D1. -/
def Obligations.DecodedKeyFitsExactlyItsTableRow : Prop :=
  ∀ (k : DecodeKey) (i : Instr),
    decodeKey k = .ok i ↔ (i.pattern.fits k = true ∧ ∀ v, i.data? = some v → v = k.request.data)

/-- A word that decodes to an operation carries the encoder's word in the fields the operation uses, and the encoder writes
the ignored bits as 0; the DLAB value reaches the operation. Rests on decisions D1 and D26. -/
def Obligations.EncodeZeroesTheIgnoredBits : Prop :=
  ∀ (w : RequestWord) (dlab : Bool) (i : Instr), decode w dlab = .ok i →
    i.wf dlab = true ∧
      encode i = w &&& (i.pattern.mask.extractLsb' 0 15 ||| (if i.data?.isSome then 0x00FF else 0x0000))

/-- Kinds 0b1001 to 0b1111 spell no operation: the decoder rejects exactly these, and a step is refused as a reserved kind
exactly when it is presented with one, whatever the life of the device. Rests on decision D1; that the refusal comes before the
device's life is looked at is the model's choice (log 18; in `Aborted`, log 10). -/
def Obligations.ReservedKindsAreRefused : Prop :=
  (∀ (w : RequestWord) (dlab : Bool), decode w dlab = .reservedKind w.kind ↔ 9 ≤ w.kind.toNat) ∧
    ∀ (s : State) (k : Kind), step s = .refused (.reservedKind k) ↔
      ∃ (w : RequestWord) (d : Draw) (rest : List Input),
        s.schedule = .request w d :: rest ∧ w.kind = k ∧ 9 ≤ k.toNat

/-- A few words written out bit by bit from 30_encoding.md R90 and R91: kind, offset, data, under the DLAB value D. -/
def Obligations.WrittenOutWordsDecode : Prop :=
  decode 0b0000_000_00000000 false = .ok .loadRbr ∧
    decode 0b0000_000_11111111 true = .ok .loadDll ∧
    decode 0b0000_101_00000000 true = .ok .loadLsr ∧
    decode 0b0001_001_11110001 false = .ok (.storeIer 0xF1) ∧
    decode 0b0001_001_11110001 true = .ok (.storeDlm 0xF1) ∧
    decode 0b0010_111_11111111 false = .ok .service ∧
    decode 0b0011_000_01000001 true = .ok (.hostRx 0x41) ∧
    decode 0b0111_000_00000000 false = .ok .construct ∧
    decode 0b1000_000_00000000 false = .ok .stop ∧
    decode 0b1001_000_00000000 false = .reservedKind 0b1001

/-- 30_encoding.md R71, the whole decode table: with DLAB = 1 offsets 0 and 1 reach DLL and DLM in both directions, with
DLAB = 0 they reach RBR or THR and IER, and every other offset is unaffected by DLAB. -/
def Obligations.RegisterDecodeTable : Prop :=
  ∀ (d : Bool) (v : Byte),
    (Request.load 0).select false = .loadRbr ∧ (Request.store 0 v).select false = .storeThr v ∧
    (Request.load 0).select true = .loadDll ∧ (Request.store 0 v).select true = .storeDll v ∧
    (Request.load 1).select false = .loadIer ∧ (Request.store 1 v).select false = .storeIer v ∧
    (Request.load 1).select true = .loadDlm ∧ (Request.store 1 v).select true = .storeDlm v ∧
    (Request.load 2).select d = .loadIir ∧ (Request.store 2 v).select d = .storeFcr v ∧
    (Request.load 3).select d = .loadLcr ∧ (Request.store 3 v).select d = .storeLcr v ∧
    (Request.load 4).select d = .loadMcr ∧ (Request.store 4 v).select d = .storeMcr v ∧
    (Request.load 5).select d = .loadLsr ∧ (Request.store 5 v).select d = .storeLsr v ∧
    (Request.load 6).select d = .loadMsr ∧ (Request.store 6 v).select d = .storeMsr v ∧
    (Request.load 7).select d = .loadScr ∧ (Request.store 7 v).select d = .storeScr v

/-! ## One step -/

/-- A step presented with a request word runs the operation the word decodes to under the DLAB value of the state before
the step (30_encoding.md R92). Rests on decisions D1 and D8; that the input is taken off the schedule, and its draws put in
place, before the operation runs is the model's design (log 1, log 2). -/
def Obligations.StepRunsTheDecodedOperation : Prop :=
  ∀ (s : State) (w : RequestWord) (d : Draw) (rest : List Input) (i : Instr),
    s.schedule = .request w d :: rest → decode w s.dlab = .ok i →
      step s = exec i ((s.setSchedule rest).setDraw d)

/-- 20_memory.md R51: a one-byte read at `UART_BASE + off` arrives as LOAD(off), a one-byte write as STORE(off, v), and the
byte the LOAD returns is the byte the read returns. -/
def Obligations.BusAccessArrivesAsLoadOrStore : Prop :=
  ∀ (s : State) (off : Offset) (v : Byte) (rest : List Input),
    (s.schedule = .bus (.read (s.cfg.uartBase + off.toNat) 1) :: rest →
      step s = exec ((Request.load off).select s.dlab) (s.setSchedule rest)) ∧
    (s.schedule = .bus (.write (s.cfg.uartBase + off.toNat) [v]) :: rest →
      step s = exec ((Request.store off v).select s.dlab) (s.setSchedule rest))

/-- An access of another width than one byte is refused and not split; a one-byte access outside the window of 8 bytes is
refused and not aliased. Rests on decisions D6 and D7; that an access of both sorts is refused for its width, and that both
refusals come before the device's life is looked at, is the model's choice (log 14). -/
def Obligations.AccessesThatNeverReachTheBlockAreRefused : Prop :=
  ∀ (s : State) (addr size : Nat) (bytes : List Byte) (rest : List Input),
    (s.schedule = .bus (.read addr size) :: rest → size ≠ 1 → step s = .refused (.accessWidth size)) ∧
    (s.schedule = .bus (.write addr bytes) :: rest → bytes.length ≠ 1 →
      step s = .refused (.accessWidth bytes.length)) ∧
    (s.schedule = .bus (.read addr size) :: rest → size = 1 →
      (addr < s.cfg.uartBase ∨ s.cfg.uartBase + 8 ≤ addr) → step s = .refused (.outsideWindow addr)) ∧
    (s.schedule = .bus (.write addr bytes) :: rest → bytes.length = 1 →
      (addr < s.cfg.uartBase ∨ s.cfg.uartBase + 8 ≤ addr) → step s = .refused (.outsideWindow addr))

/-! ## Loads -/

/-- 40_loads.md R100: the oldest byte of the receive FIFO, if there is one, moves to RBR; the read returns RBR, which is
the last received byte when the FIFO is empty. -/
def Obligations.LoadRbrPopsTheOldestByte : Prop :=
  (∀ k : DecodeKey, k &&& 0xFF00 = 0x0000 → decodeKey k = .ok .loadRbr) ∧
  ∀ s : State, s.life = .running →
    (∀ b rest, s.rx = b :: rest →
      ∃ t, exec .loadRbr s = .next t ∧ t.returned = some b ∧ t.read .rbr = b ∧ t.rx = rest ∧
        t.events = s.events ++ traceEvents s.cfg .load 0 b ∧
        Frame [.reg .rbr, .rx, .events, .returned] s t) ∧
    (s.rx = [] →
      ∃ t, exec .loadRbr s = .next t ∧ t.returned = some (s.read .rbr) ∧
        t.events = s.events ++ traceEvents s.cfg .load 0 (s.read .rbr) ∧
        Frame [.events, .returned] s t)

/-- 40_loads.md R101, R103, R105, R106, R109: a LOAD of DLL, DLM, LCR, MCR or SCR returns the stored byte, all 8 bits, and
changes nothing else; in particular the receive FIFO and RBR stay. -/
def Obligations.LoadOfAStoredRegisterReturnsIt : Prop :=
  ∀ (i : Instr) (r : Reg) (off : Offset) (p : Pattern),
    (i, r, off, p) ∈
      ([(.loadDll, .dll, 0, ⟨0x8000, 0xFF00⟩), (.loadDlm, .dlm, 1, ⟨0x8100, 0xFF00⟩),
        (.loadLcr, .lcr, 3, ⟨0x0300, 0x7F00⟩), (.loadMcr, .mcr, 4, ⟨0x0400, 0x7F00⟩),
        (.loadScr, .scr, 7, ⟨0x0700, 0x7F00⟩)] : List (Instr × Reg × Offset × Pattern)) →
    (∀ k : DecodeKey, k &&& p.mask = p.bits → decodeKey k = .ok i) ∧
    ∀ s : State, s.life = .running →
      ∃ t, exec i s = .next t ∧ t.returned = some (s.read r) ∧
        t.events = s.events ++ traceEvents s.cfg .load off (s.read r) ∧
        Frame [.events, .returned] s t

/-- 40_loads.md R102: a LOAD of IER returns the stored IER, never the IIR value, and its bits 7:4 read 0 in every state that
meets the invariant of 10_state.md R39. -/
def Obligations.LoadIerReturnsTheStoredEnables : Prop :=
  (∀ k : DecodeKey, k &&& 0xFF00 = 0x0100 → decodeKey k = .ok .loadIer) ∧
  ∀ s : State, s.life = .running →
    ∃ t v, exec .loadIer s = .next t ∧ t.returned = some v ∧ v = s.read .ier ∧
      (s.Inv → v &&& 0xF0 = 0) ∧
      t.events = s.events ++ traceEvents s.cfg .load 1 v ∧
      Frame [.events, .returned] s t

/-- 40_loads.md R104, in its named parameters: IIR is `IIR_RX_READY` while input is buffered and `IIR_TX_READY` otherwise,
whatever IER and DLAB hold, and the read clears nothing. -/
def Obligations.LoadIirReportsTheReceiveFifo : Prop :=
  (∀ k : DecodeKey, k &&& 0x7F00 = 0x0200 → decodeKey k = .ok .loadIir) ∧
  ∀ s : State, s.life = .running →
    ∃ t v, exec .loadIir s = .next t ∧ t.returned = some v ∧
      v = (if s.rx = [] then s.cfg.codes.iirTxReady else s.cfg.codes.iirRxReady) ∧
      t.events = s.events ++ traceEvents s.cfg .load 2 v ∧
      Frame [.events, .returned] s t

/-- 40_loads.md R107, in its named parameters: LSR always has `LSR_THR_EMPTY`, whatever `tx` holds, and
`LSR_DATA_AVAILABLE` exactly while the receive FIFO is not empty; no other bit. -/
def Obligations.LoadLsrReportsThrEmptyAndInput : Prop :=
  (∀ k : DecodeKey, k &&& 0x7F00 = 0x0500 → decodeKey k = .ok .loadLsr) ∧
  ∀ s : State, s.life = .running →
    ∃ t v, exec .loadLsr s = .next t ∧ t.returned = some v ∧
      v = (if s.rx = [] then s.cfg.codes.lsrThrEmpty
        else s.cfg.codes.lsrThrEmpty ||| s.cfg.codes.lsrDataAvailable) ∧
      t.events = s.events ++ traceEvents s.cfg .load 5 v ∧
      Frame [.events, .returned] s t

/-- 40_loads.md R108, in its named parameters: MSR is the constant carrier-detect and data-set-ready report, whatever MCR
holds. -/
def Obligations.LoadMsrReportsAConstant : Prop :=
  (∀ k : DecodeKey, k &&& 0x7F00 = 0x0600 → decodeKey k = .ok .loadMsr) ∧
  ∀ s : State, s.life = .running →
    ∃ t v, exec .loadMsr s = .next t ∧ t.returned = some v ∧
      v = s.cfg.codes.msrCarrierDetect ||| s.cfg.codes.msrDataSetReady ∧
      t.events = s.events ++ traceEvents s.cfg .load 6 v ∧
      Frame [.events, .returned] s t

/-- The numbers of the derived registers under the decided codes: IIR 0x04 or 0x02, LSR 0x21 or 0x20, MSR 0xA0. Rests on decision
D2 (log 5), the family's codes. -/
def Obligations.DecidedStatusCodes : Prop :=
  ∀ s : State, s.cfg.codes = .decided →
    (s.rx ≠ [] → s.iir = 0x04 ∧ s.lsr = 0x21) ∧ (s.rx = [] → s.iir = 0x02 ∧ s.lsr = 0x20) ∧ s.msr = 0xA0

/-! ## Stores -/

/-- 41_stores.md R120: a STORE of THR writes THR and pushes the byte at the tail of the transmit FIFO, for every byte; RBR
and the receive FIFO are not touched, and LSR reads as before. -/
def Obligations.StoreThrQueuesTheByte : Prop :=
  (∀ k : DecodeKey, k &&& 0xFF00 = 0x0800 → decodeKey k = .ok (.storeThr k.request.data)) ∧
  ∀ (s : State) (v : Byte), s.life = .running →
    ∃ t, exec (.storeThr v) s = .next t ∧ t.read .thr = v ∧ t.tx = s.tx ++ [v] ∧ t.returned = none ∧
      t.lsr = s.lsr ∧ t.events = s.events ++ traceEvents s.cfg .store 0 v ∧
      Frame [.reg .thr, .tx, .events, .returned] s t

/-- 41_stores.md R121, R123, R125, R126, R129: a STORE of DLL, DLM, LCR, MCR or SCR stores the byte raw and has no further
effect; in a legal configuration DLAB after it is bit 7 of the LCR stored, and for the other four it is unchanged. -/
def Obligations.StoreOfARawRegisterStoresTheByte : Prop :=
  ∀ (i : Byte → Instr) (r : Reg) (off : Offset) (p : Pattern),
    (i, r, off, p) ∈
      ([(.storeDll, .dll, 0, ⟨0x8800, 0xFF00⟩), (.storeDlm, .dlm, 1, ⟨0x8900, 0xFF00⟩),
        (.storeLcr, .lcr, 3, ⟨0x0B00, 0x7F00⟩), (.storeMcr, .mcr, 4, ⟨0x0C00, 0x7F00⟩),
        (.storeScr, .scr, 7, ⟨0x0F00, 0x7F00⟩)] : List ((Byte → Instr) × Reg × Offset × Pattern)) →
    (∀ k : DecodeKey, k &&& p.mask = p.bits → decodeKey k = .ok (i k.request.data)) ∧
    ∀ (s : State) (v : Byte), s.life = .running →
      ∃ t, exec (i v) s = .next t ∧ t.read r = v ∧ t.returned = none ∧
        (s.cfg.wf = true → t.dlab = (if r = .lcr then v.getLsbD 7 else s.dlab)) ∧
        t.events = s.events ++ traceEvents s.cfg .store off v ∧
        Frame [.reg r, .events, .returned] s t

/-- 41_stores.md R122: a STORE of IER stores `v & IER_MASK` and signals nothing itself; in a legal configuration each of the
four enable bits is stored as written and bits 7:4 are discarded; with the decided codes these are the low 4 bits. The trace
carries the byte as written. Rests on decisions D2 and D22 (log 5, log 13, log 22). -/
def Obligations.StoreIerMasksTheByte : Prop :=
  (∀ k : DecodeKey, k &&& 0xFF00 = 0x0900 → decodeKey k = .ok (.storeIer k.request.data)) ∧
  ∀ (s : State) (v : Byte), s.life = .running →
    ∃ t, exec (.storeIer v) s = .next t ∧ t.returned = none ∧
      t.read .ier = v &&& s.cfg.codes.ierMask ∧
      (s.cfg.wf = true → t.read .ier &&& 0xF0 = 0 ∧
        ∀ enable ∈ [s.cfg.codes.ierErbfi, s.cfg.codes.ierEtbei, s.cfg.codes.ierElsi, s.cfg.codes.ierEdssi],
          t.read .ier &&& enable = v &&& enable) ∧
      (s.cfg.codes = .decided → ∀ n, (t.read .ier).getLsbD n = (decide (n < 4) && v.getLsbD n)) ∧
      t.events = s.events ++ traceEvents s.cfg .store 1 v ∧
      Frame [.reg .ier, .events, .returned] s t

/-- 41_stores.md R124, R127, R128: a STORE to FCR, LSR or MSR is accepted and changes no state; neither FIFO is cleared. -/
def Obligations.StoreToFcrLsrMsrChangesNothing : Prop :=
  ∀ (i : Byte → Instr) (off : Offset) (p : Pattern),
    (i, off, p) ∈
      ([(.storeFcr, 2, ⟨0x0A00, 0x7F00⟩), (.storeLsr, 5, ⟨0x0D00, 0x7F00⟩),
        (.storeMsr, 6, ⟨0x0E00, 0x7F00⟩)] : List ((Byte → Instr) × Offset × Pattern)) →
    (∀ k : DecodeKey, k &&& p.mask = p.bits → decodeKey k = .ok (i k.request.data)) ∧
    ∀ (s : State) (v : Byte), s.life = .running →
      ∃ t, exec (i v) s = .next t ∧ t.returned = none ∧ t.iir = s.iir ∧ t.lsr = s.lsr ∧
        t.events = s.events ++ traceEvents s.cfg .store off v ∧
        Frame [.events, .returned] s t

/-! ## SERVICE -/

/-- 42_irq_service.md R140: in a legal configuration SERVICE emits exactly one IrqSignal of the configured line when IER bit 0 is 1 and the receive
FIFO is not empty, and nothing otherwise, whatever `suspended` and IER bits 1 to 3 are; it changes no state. -/
def Obligations.ServiceSignalsExactlyOnInputWhileEnabled : Prop :=
  (∀ k : DecodeKey, k &&& 0x7800 = 0x1000 → decodeKey k = .ok .service) ∧
  ∀ s : State, s.life = .running → s.cfg.wf = true →
    ∃ t, exec .service s = .next t ∧ t.returned = none ∧
      ((s.read .ier).getLsbD 0 = true ∧ s.rx ≠ [] → t.events = s.events ++ [.irqSignal s.cfg.irqLine]) ∧
      (¬((s.read .ier).getLsbD 0 = true ∧ s.rx ≠ []) → t.events = s.events) ∧
      Frame [.events, .returned] s t

/-! ## The host port -/

/-- 43_host_port.md R150: while not suspended and with room in the FIFO (always, with an unbounded `RX_DEPTH`), HOST_RX
appends the byte. Rests on decisions D4 and D25. -/
def Obligations.HostRxAppendsTheByte : Prop :=
  (∀ k : DecodeKey, k &&& 0x7800 = 0x1800 → decodeKey k = .ok (.hostRx k.request.data)) ∧
  ∀ (s : State) (b : Byte), s.life = .running → s.suspended = false →
    (∀ depth, s.cfg.rxDepth = some depth → s.rx.length < depth) →
      ∃ t, exec (.hostRx b) s = .next t ∧ t.rx = s.rx ++ [b] ∧ t.returned = none ∧ Frame [.rx, .returned] s t

/-- 43_host_port.md R150: while not suspended and with a full FIFO, HOST_RX has no step. Rests on decision D4; that the
model answers by a refusal is its choice (log 9). -/
def Obligations.HostRxIntoAFullFifoHasNoStep : Prop :=
  ∀ (s : State) (b : Byte) (depth : Nat), s.life = .running → s.suspended = false →
    s.cfg.rxDepth = some depth → depth ≤ s.rx.length → exec (.hostRx b) s = .refused .rxFull

/-- 43_host_port.md R151: while suspended the byte is consumed and discarded, whether or not the FIFO is full. Rests on
decision D4. -/
def Obligations.HostRxWhileSuspendedDiscards : Prop :=
  ∀ (s : State) (b : Byte), s.life = .running → s.suspended = true →
    ∃ t, exec (.hostRx b) s = .next t ∧ t.returned = none ∧ Frame [.returned] s t

/-- 43_host_port.md R152: HOST_TX_POP removes the oldest transmit byte, and emits it exactly when the drawn host write
succeeds; with nothing queued there is no step. Rests on decision D14; that the model answers the latter by a refusal is its
choice (log 9). -/
def Obligations.HostTxPopRelaysTheOldestByte : Prop :=
  (∀ k : DecodeKey, k &&& 0x7800 = 0x2000 → decodeKey k = .ok .hostTxPop) ∧
  ∀ s : State, s.life = .running →
    (∀ b rest, s.tx = b :: rest →
      ∃ t, exec .hostTxPop s = .next t ∧ t.tx = rest ∧ t.returned = none ∧
        t.events = s.events ++ (if s.draw.ok = true then [.hostOut b] else []) ∧
        Frame [.tx, .events, .returned] s t) ∧
    (s.tx = [] → exec .hostTxPop s = .refused .txEmpty)

/-- 43_host_port.md R154: SUSPEND sets the flag and nothing else, so bytes already queued stay; twice is as once. -/
def Obligations.SuspendSetsTheFlag : Prop :=
  (∀ k : DecodeKey, k &&& 0x7800 = 0x2800 → decodeKey k = .ok .suspend) ∧
  ∀ s : State, s.life = .running →
    ∃ t, exec .suspend s = .next t ∧ t.suspended = true ∧ t.returned = none ∧
      Frame [.suspended, .returned] s t ∧ exec .suspend t = .next t

/-- 43_host_port.md R155: RESUME clears the flag and nothing else, so no discarded byte comes back; twice is as once. -/
def Obligations.ResumeClearsTheFlag : Prop :=
  (∀ k : DecodeKey, k &&& 0x7800 = 0x3000 → decodeKey k = .ok .resume) ∧
  ∀ s : State, s.life = .running →
    ∃ t, exec .resume s = .next t ∧ t.suspended = false ∧ t.returned = none ∧
      Frame [.suspended, .returned] s t ∧ exec .resume t = .next t

/-- 43_host_port.md R156: STOP relays a drawn prefix of the transmit FIFO in order, empties both FIFOs and enters
`Stopped`; every prefix is admitted by some draw. Rests on decision D16. -/
def Obligations.StopRelaysAPrefixAndTearsDown : Prop :=
  (∀ k : DecodeKey, k &&& 0x7800 = 0x4000 → decodeKey k = .ok .stop) ∧
  ∀ s : State, s.life = .running →
    ∃ t relayed, exec .stop s = .next t ∧ relayed <+: s.tx ∧
      (s.draw.relayed ≤ s.tx.length → relayed.length = s.draw.relayed) ∧
      t.events = s.events ++ relayed.map .hostOut ∧ t.tx = [] ∧ t.rx = [] ∧ t.life = .stopped ∧
      t.returned = none ∧ Frame [.events, .tx, .rx, .life, .returned] s t

/-! ## Construction, aborting, lifecycle -/

/-- 70_reset_and_hazards.md R190: with a legal configuration as its operand and without a fatal failure CONSTRUCT makes a new
device of that configuration, before the first construction and in `Stopped`: IER, LCR and MCR are 0, the other registers
hold their draws, the FIFOs are empty. Rests on decisions D3, D16 and D19; that there is a life before the first construction
(log 7), that the operand replaces an earlier device's configuration (log 6), and that the event history goes on (log 12) are
the model's readings. -/
def Obligations.ConstructMakesANewDevice : Prop :=
  (∀ k : DecodeKey, k &&& 0x7800 = 0x3800 → decodeKey k = .ok .construct) ∧
  ∀ s : State, s.life = .unconstructed ∨ s.life = .stopped → s.draw.config.wf = true → s.draw.fatal = false →
    ∃ t, exec .construct s = .next t ∧
      t.read .rbr = s.draw.resetRbr ∧ t.read .thr = s.draw.resetThr ∧ t.read .scr = s.draw.resetScr ∧
      t.read .dll = s.draw.resetDll ∧ t.read .dlm = s.draw.resetDlm ∧
      t.read .ier = 0x00 ∧ t.read .lcr = 0x00 ∧ t.read .mcr = 0x00 ∧
      t.rx = [] ∧ t.tx = [] ∧ t.suspended = false ∧ t.life = .running ∧ t.returned = none ∧
      t.cfg = s.draw.config ∧ t.events = s.events ∧ t.draw = s.draw ∧ t.schedule = s.schedule

/-- 60_exceptions.md R172: a fatal failure at construction, and the bridge's fault step in `Running`, emit Abort with their
reason and enter `Aborted`, and change nothing else. Rests on decision D17; that the entry is a next state (log 10) and that
CONSTRUCT's operand is legal (log 22) are the model's readings. -/
def Obligations.FatalFailureAborts : Prop :=
  (∀ s : State, s.life = .unconstructed ∨ s.life = .stopped → s.draw.config.wf = true → s.draw.fatal = true →
    ∃ t, exec .construct s = .next t ∧ t.events = s.events ++ [.abort .startup] ∧ t.life = .aborted ∧
      t.returned = none ∧ Frame [.events, .life, .returned] s t) ∧
  ∀ (s : State) (rest : List Input), s.life = .running → s.schedule = .bridgeFault :: rest →
    ∃ t, step s = .next t ∧ t.events = s.events ++ [.abort .wait] ∧ t.life = .aborted ∧
      t.returned = none ∧ t.schedule = rest ∧ Frame [.events, .life, .returned, .schedule] s t

/-- 30_encoding.md R93, 60_exceptions.md R172: in `Aborted` every operation, CONSTRUCT among them, stops with DeviceAbort,
and no input whatever has a step. Rests on decision D17; the stop's name is the model's choice (log 10). -/
def Obligations.AbortedIsFinal : Prop :=
  ∀ s : State, s.life = .aborted →
    (∀ i, exec i s = .fault .deviceAborted) ∧ ∀ t, step s ≠ .next t

/-- 30_encoding.md R93: in `Stopped`, and before the first construction, every operation but CONSTRUCT is refused, a second
STOP among them. Rests on decision D16; the life before the first construction is the model's reading (log 7), and so is that
the bridge's fault step, which is no operation, is refused there too, because it is enabled in `Running` alone (log 19). -/
def Obligations.OnlyConstructRunsOnADeadDevice : Prop :=
  ∀ s : State,
    (s.life = .stopped → (∀ i, i ≠ .construct → exec i s = .refused .deviceStopped) ∧
      execBridgeFault s = .refused .deviceStopped) ∧
    (s.life = .unconstructed → (∀ i, i ≠ .construct → exec i s = .refused .notConstructed) ∧
      execBridgeFault s = .refused .notConstructed)

/-- An operation that completes in `Running` is one of those with a step there, and each of these has one: every operation
but CONSTRUCT (90_conflicts.md C11), HOST_RX into a full FIFO while not suspended (43_host_port.md R150) and HOST_TX_POP with
nothing queued (R152). Rests on decisions D4, D14, D16, D17 and on log 8 and log 9. -/
def Obligations.WhatCompletesInRunning : Prop :=
  ∀ (i : Instr) (s : State), s.life = .running →
    ((∃ t, exec i s = .next t) ↔
      ¬(i = .construct ∨
        (∃ b depth, i = .hostRx b ∧ s.suspended = false ∧ s.cfg.rxDepth = some depth ∧ depth ≤ s.rx.length) ∨
        (i = .hostTxPop ∧ s.tx = [])))

/-- 60_exceptions.md R170 and 41_stores.md R131: in `Running` every LOAD completes with a value and every STORE completes
with none, in one step, for every offset, DLAB value and byte. -/
def Obligations.EveryRegisterAccessCompletes : Prop :=
  ∀ (s : State) (dlab : Bool) (off : Offset) (v : Byte), s.life = .running →
    (∃ t b, exec ((Request.load off).select dlab) s = .next t ∧ t.returned = some b) ∧
      ∃ t, exec ((Request.store off v).select dlab) s = .next t ∧ t.returned = none

/-! ## Reset and the invariants -/

/-- 10_state.md R38: what the state after reset holds, where the spec gives it; RBR, THR, SCR, DLL and DLM hold draws; IIR, LSR
and MSR read 0x02, 0x20 and 0xA0 with the decided codes. Rests on decisions D2, D3 and D19 (log 4, log 5, log 6, log 21). -/
def Obligations.ResetLeavesTheConstructedDevice : Prop :=
  State.reset.read .ier = 0x00 ∧ State.reset.read .lcr = 0x00 ∧ State.reset.read .mcr = 0x00 ∧
    State.reset.rx = [] ∧ State.reset.tx = [] ∧ State.reset.suspended = false ∧ State.reset.life = .running ∧
    State.reset.dlab = false ∧ State.reset.cfg.codes = .decided ∧ State.reset.cfg.rxDepth = none ∧
    State.reset.iir = 0x02 ∧ State.reset.lsr = 0x20 ∧ State.reset.msr = 0xA0

/-- The three invariants hold in the state after reset. Rests on decisions D2, D3 and D19: that IER is 0 (log 4), the codes
(log 5, log 6) and the empty FIFOs (log 21) are the spec's decisions from outside its source, and that the history is empty is
the model's choice (log 12). -/
def Obligations.ResetMeetsTheInvariants : Prop :=
  State.reset.Inv ∧ State.reset.StoppedIsEmpty ∧ State.reset.AbortIsRecorded

/-- 10_state.md R39: every step, from every state that meets it, keeps the configuration legal, IER bits 7:4 at 0 and the receive
FIFO within `RX_DEPTH`. Rests on the spec's derivation of R39 and on log 22. -/
def Obligations.StepKeepsIerMaskedAndRxBounded : Prop :=
  ∀ s t : State, s.Inv → step s = .next t → t.Inv

/-- Every step keeps a torn-down device empty: "No other state persists across teardown" (43_host_port.md R156). Rests on
decision D16. -/
def Obligations.StepKeepsStoppedEmpty : Prop :=
  ∀ s t : State, s.StoppedIsEmpty → step s = .next t → t.StoppedIsEmpty

/-- Every step keeps the device aborted exactly when its history shows an Abort (60_exceptions.md R172). Rests on decision
D17. -/
def Obligations.StepKeepsAbortRecorded : Prop :=
  ∀ s t : State, s.AbortIsRecorded → step s = .next t → t.AbortIsRecorded

/-! ## Whole-machine rules -/

/-- 10_state.md R36: the configuration is fixed for a device's lifetime. No step writes it but the CONSTRUCT that makes a new
device, whose configuration is CONSTRUCT's operand (70_reset_and_hazards.md R190). How the two rules go together is the model's
reading (log 6). -/
def Obligations.ConfigurationIsFixedForALifetime : Prop :=
  ∀ s t : State, step s = .next t → t.cfg ≠ s.cfg →
    (s.life = .unconstructed ∨ s.life = .stopped) ∧ t.life = .running ∧
      ∃ u, fetch s = .op .construct u ∧ t.cfg = u.draw.config

/-- 10_state.md R37: the outputs form one ordered history. That every step only appends to it, STOP and CONSTRUCT among them, is
the model's reading (log 12). Rests on decision D18. -/
def Obligations.HistoryOnlyGrows : Prop :=
  ∀ s t : State, step s = .next t → s.events <+: t.events

/-- 10_state.md R32: only HOST_RX, a step of BRIDGE, adds to the receive FIFO, at its tail; only a LOAD of RBR removes from
it, at its head; STOP and CONSTRUCT empty it. Rests on decisions D4 and D16. -/
def Obligations.WhoTouchesTheReceiveFifo : Prop :=
  ∀ (i : Instr) (s t : State), exec i s = .next t → t.rx ≠ s.rx →
    (∃ b, i = .hostRx b ∧ i.agent = .bridge ∧ t.rx = s.rx ++ [b]) ∨
      (i = .loadRbr ∧ ∃ b, s.rx = b :: t.rx ∧ t.returned = some b) ∨
      ((i = .stop ∨ i = .construct) ∧ t.rx = [])

/-- 10_state.md R33: only a STORE of THR adds to the transmit FIFO, at its tail; only HOST_TX_POP, a step of BRIDGE, removes
from it, at its head; STOP and CONSTRUCT empty it. Rests on decisions D5 and D16. -/
def Obligations.WhoTouchesTheTransmitFifo : Prop :=
  ∀ (i : Instr) (s t : State), exec i s = .next t → t.tx ≠ s.tx →
    (∃ v, i = .storeThr v ∧ t.tx = s.tx ++ [v]) ∨
      (i = .hostTxPop ∧ i.agent = .bridge ∧ ∃ b, s.tx = b :: t.tx) ∨
      ((i = .stop ∨ i = .construct) ∧ t.tx = [])

/-- 10_state.md R42: once the receive FIFO is non-empty it stays so, and LSR shows it, until a LOAD of RBR (or STOP or
CONSTRUCT), through any number of steps of either agent. Rests on the spec's derivation of R42. -/
def Obligations.InputStaysUntilAnRbrLoad : Prop :=
  ∀ (n : Nat) (s t : State), run n s = .next t → s.rx ≠ [] →
    Throughout (fun i _ => i ≠ .loadRbr ∧ i ≠ .stop ∧ i ≠ .construct) n s →
      t.rx ≠ [] ∧ t.lsr &&& t.cfg.codes.lsrDataAvailable = t.cfg.codes.lsrDataAvailable

/-- 42_irq_service.md R140 to R142, 60_exceptions.md R174: in a legal configuration an interrupt is signalled by a SERVICE step alone, on the
configured line, when IER bit 0 is 1 and input is waiting at that step, and at most once in it. Rests on decision D12. -/
def Obligations.OnlyServiceSignals : Prop :=
  ∀ (s t : State) (new : List Event), s.cfg.wf = true → step s = .next t → t.events = s.events ++ new →
    (∀ line, Event.irqSignal line ∈ new →
      new = [.irqSignal s.cfg.irqLine] ∧ line = s.cfg.irqLine ∧ (s.read .ier).getLsbD 0 = true ∧ s.rx ≠ [] ∧
        ∃ u, fetch s = .op .service u)

/-- 20_memory.md R56: every LOAD but that of RBR changes no state; its only effect is the returned byte and the trace
record, so it clears no interrupt and no status bit. Rests on the spec's derivation of R56. -/
def Obligations.OnlyTheRbrLoadHasASideEffect : Prop :=
  ∀ (s t : State) (dlab : Bool) (off : Offset), exec ((Request.load off).select dlab) s = .next t →
    (Request.load off).select dlab ≠ .loadRbr →
      Frame [.events, .returned] s t ∧ untraced t.events = untraced s.events ∧
        t.iir = s.iir ∧ t.lsr = s.lsr ∧ t.irqCond = s.irqCond

/-- 20_memory.md R57: repeating a STORE changes nothing more, and outputs nothing but a trace record, but for THR, where each
STORE pushes one more byte. Rests on the spec's derivation of R57. -/
def Obligations.RepeatedStoresAreIdempotentButThr : Prop :=
  ∀ (s t : State) (dlab : Bool) (off : Offset) (v : Byte), exec ((Request.store off v).select dlab) s = .next t →
    ∃ u, exec ((Request.store off v).select dlab) t = .next u ∧ untraced u.events = untraced t.events ∧
      if (Request.store off v).select dlab = .storeThr v then
        u.tx = s.tx ++ [v, v] ∧ Frame [.tx, .events] t u
      else Frame [.events] t u

/-- 30_encoding.md R72: the DLAB value used is LCR as it stands before the access, so a STORE of LCR changes the banking
from the very next access on: of a LOAD or a STORE at offset 0 or 1 (R71). In a legal configuration; rests on the spec's
derivation of R72. -/
def Obligations.LcrStoreBanksTheNextAccess : Prop :=
  ∀ (s : State) (v w : Byte) (d₁ d₂ : Draw) (rest : List Input), s.life = .running → s.cfg.wf = true →
    ∃ t, step (s.setSchedule (.request (Request.store 3 v).word d₁ :: rest)) = .next t ∧ t.read .lcr = v ∧
      ∀ (access : Request) (banked plain : Instr),
        (access, banked, plain) ∈
          [(Request.load 0, Instr.loadDll, Instr.loadRbr), (.load 1, .loadDlm, .loadIer),
            (.store 0 w, .storeDll w, .storeThr w), (.store 1 w, .storeDlm w, .storeIer w)] →
        ∀ more, rest = .request access.word d₂ :: more →
          step t = exec (if v.getLsbD 7 then banked else plain) ((t.setSchedule more).setDraw d₂)

/-- 30_encoding.md R98: the expansion of `setdiv lcr, m, l` sets the divisor latches to `m` and `l` and leaves LCR with DLAB
clear, and touches neither FIFO, THR nor IER. In a legal configuration; rests on decision D11. -/
def Obligations.SetdivWritesTheDivisor : Prop :=
  ∀ (s : State) (lcr m l : Byte) (d : Draw) (rest : List Input), s.life = .running → s.cfg.wf = true →
    s.schedule = (pseudoSetdiv lcr m l).map (fun r => .request r.word d) ++ rest →
      ∃ t, run 4 s = .next t ∧
        t.read .dll = l ∧ t.read .dlm = m ∧ t.read .lcr = lcr &&& 0x7F ∧ t.dlab = false ∧ t.schedule = rest ∧
        untraced t.events = untraced s.events ∧
        Frame [.reg .dll, .reg .dlm, .reg .lcr, .events, .returned, .draw, .schedule] s t

/-! ## What can be observed -/

/-- 40_loads.md R110, 41_stores.md R130: two machines that differ only in `TRACE_ENABLED` and in Trace records take the same
steps and still differ only there. Rests on decision D18. -/
def Obligations.TraceIsObservabilityOnly : Prop :=
  ∀ s t : State, EqualButTrace s t → SameOutcome EqualButTrace (step s) (step t)

/-- 10_state.md R22, R27, R30, R31: THR, MCR, SCR, DLL and DLM affect nothing but the LOAD that reads the register back: two
machines that differ only in one of them take the same steps, return the same bytes and emit the same events, unless the
step is that LOAD. -/
def Obligations.InertRegistersAreOnlyReadBack : Prop :=
  ∀ (r : Reg) (s t : State), r ∈ [Reg.thr, .mcr, .scr, .dll, .dlm] → Frame [.reg r] s t →
    (∀ (i : Instr) (u : State),
      (i, r) ∈ [(Instr.loadMcr, Reg.mcr), (.loadScr, .scr), (.loadDll, .dll), (.loadDlm, .dlm)] → fetch s ≠ .op i u) →
      SameOutcome (Frame [.reg r]) (step s) (step t)

/-- 10_state.md R23 and R24: in a legal configuration LCR bits 6:0 and IER bits 7:1 affect nothing but the LOAD that reads the
register back. -/
def Obligations.InertBitsAreOnlyReadBack : Prop :=
  ∀ s t : State, s.cfg.wf = true →
    (Frame [.reg .lcr] s t → (s.read .lcr).getLsbD 7 = (t.read .lcr).getLsbD 7 → (∀ u, fetch s ≠ .op .loadLcr u) →
      SameOutcome (fun a b => Frame [.reg .lcr] a b ∧ (a.read .lcr).getLsbD 7 = (b.read .lcr).getLsbD 7)
        (step s) (step t)) ∧
    (Frame [.reg .ier] s t → (s.read .ier).getLsbD 0 = (t.read .ier).getLsbD 0 → (∀ u, fetch s ≠ .op .loadIer u) →
      SameOutcome (fun a b => Frame [.reg .ier] a b ∧ (a.read .ier).getLsbD 0 = (b.read .ier).getLsbD 0)
        (step s) (step t))

/-! ## Order, over every run -/

/-- 20_memory.md R62: over any number of steps of either agent that neither tear down nor construct, the bytes that RBR LOADs
delivered, followed by those still queued, are the bytes queued at the start followed by those HOST_RX appended: received
bytes come back in push order, each exactly once. Rests on the spec's derivation of R62. -/
def Obligations.ReceivedBytesComeBackInOrder : Prop :=
  ∀ (n : Nat) (s t : State), run n s = .next t → Throughout keepsDevice n s →
    along rbrDelivered n s ++ t.rx = s.rx ++ along rxAppended n s

/-- 20_memory.md R63: over any number of steps that neither tear down nor construct, with every host write accepted, the
bytes sent to the host, followed by those still queued, are the bytes stored to THR in STORE order: no drop, no reorder, no
duplication. Rests on decision D14. -/
def Obligations.StoredBytesReachTheHostInOrder : Prop :=
  ∀ (n : Nat) (s t : State), run n s = .next t → Throughout keepsDevice n s →
    Throughout hostAccepts n s →
      hostOutput t.events ++ t.tx = hostOutput s.events ++ s.tx ++ along thrStored n s

/-- 20_memory.md R63: over any number of any steps, with failed host writes, STOP and CONSTRUCT among them, the bytes sent to
the host are stored bytes in STORE order, each at most once. Rests on decisions D14 and D16. -/
def Obligations.HostOutputNeverReordersOrDuplicates : Prop :=
  ∀ (n : Nat) (s t : State), run n s = .next t →
    (hostOutput t.events ++ t.tx).Sublist (hostOutput s.events ++ s.tx ++ along thrStored n s)

/-! ## Which configurations a device can have -/

/-- CONSTRUCT, before the first construction and in `Stopped`, has a step exactly when its operand is a configuration that
00_scope.md R5 allows: an `RX_DEPTH` of at least 1 or unbounded, and codes that meet the rules that name bits by number. That
the model answers any other by a refusal, before a fatal failure, is its choice (log 22; log 7). -/
def Obligations.ConstructTakesLegalConfigurationsAlone : Prop :=
  ∀ s : State, s.life = .unconstructed ∨ s.life = .stopped →
    let c := s.draw.config.codes
    let legal := s.draw.config.rxDepth ≠ some 0 ∧ c.ierErbfi = 0x01 ∧ c.lcrDlab = 0x80 ∧
      c.ierMask = c.ierErbfi ||| c.ierEtbei ||| c.ierElsi ||| c.ierEdssi ∧ c.ierMask &&& 0xF0 = 0
    (legal → ∃ t, exec .construct s = .next t) ∧
      (¬legal → exec .construct s = .refused .illegalConfiguration)
end

