-- ==== Sys2Proof/Laws/Decode.lean ====
section
/-! SUPPORT. The fields of a word built from its fields, and of a key built from a word. -/

namespace Sys2Proof

/-- A bit of a request word, by field. -/
theorem requestWord_bit (k : Kind) (o : Offset) (v : Byte) (n : Nat) :
    (requestWord k o v).getLsbD n =
      if n < 8 then v.getLsbD n else if n - 8 < 3 then o.getLsbD (n - 8) else k.getLsbD (n - 8 - 3) := by
  have outer : (k ++ o ++ v).getLsbD n = _ := BitVec.getLsbD_append
  have inner : (k ++ o).getLsbD (n - 8) = _ := BitVec.getLsbD_append
  rw [← inner]
  exact outer

@[simp] theorem requestWord_data (k : Kind) (o : Offset) (v : Byte) : (requestWord k o v).data = v := by
  apply BitVec.eq_of_getLsbD_eq
  intro j hj
  rw [RequestWord.data, BitVec.getLsbD_extractLsb', requestWord_bit]
  simp [hj]

@[simp] theorem requestWord_off (k : Kind) (o : Offset) (v : Byte) : (requestWord k o v).off = o := by
  apply BitVec.eq_of_getLsbD_eq
  intro j hj
  rw [RequestWord.off, BitVec.getLsbD_extractLsb', requestWord_bit, if_neg (by omega), if_pos (by omega)]
  simp [hj]

@[simp] theorem requestWord_kind (k : Kind) (o : Offset) (v : Byte) : (requestWord k o v).kind = k := by
  apply BitVec.eq_of_getLsbD_eq
  intro j hj
  rw [RequestWord.kind, BitVec.getLsbD_extractLsb', requestWord_bit, if_neg (by omega), if_neg (by omega)]
  simp [hj, show 11 + j - 8 - 3 = j by omega]

@[simp] theorem encodeKey_request (d : Bool) (i : Instr) : (encodeKey d i).request = encode i :=
  BitVec.extractLsb'_append_eq_right

@[simp] theorem encodeKey_dlab (d : Bool) (i : Instr) : (encodeKey d i).dlab = d := by
  have bit : (BitVec.ofBool d ++ encode i).getLsbD 15 = _ := BitVec.getLsbD_append
  exact bit.trans (by simp)

/-- A request's word parses back to it. -/
@[simp] theorem parseRequest_word (r : Request) : parseRequest r.word = some r := by
  cases r <;> simp [parseRequest, Request.word]

/-- A request's word decodes to the operation DLAB selects for it. -/
@[simp] theorem decode_word (r : Request) (d : Bool) : decode r.word d = .ok (r.select d) := by
  simp [decode]

/-! ## A decode key by its high byte: the operation is decided by bits 15:8, the data byte is bits 7:0 -/

/-- Bits 15:8 of a decode key: D, kind and offset. -/
def DecodeKey.high (k : DecodeKey) : Byte := k.extractLsb' 8 8

theorem DecodeKey.kind_eq (k : DecodeKey) : k.request.kind = k.high.extractLsb' 3 4 := by
  apply BitVec.eq_of_getLsbD_eq
  intro j hj
  simp [DecodeKey.request, RequestWord.kind, DecodeKey.high, hj, show 3 + j < 8 by omega,
    show 8 + (3 + j) = 11 + j by omega]

theorem DecodeKey.off_eq (k : DecodeKey) : k.request.off = k.high.extractLsb' 0 3 := by
  apply BitVec.eq_of_getLsbD_eq
  intro j hj
  simp [DecodeKey.request, RequestWord.off, DecodeKey.high, hj, show j < 8 by omega]

theorem DecodeKey.dlab_eq (k : DecodeKey) : k.dlab = k.high.getLsbD 7 := by
  simp [DecodeKey.dlab, DecodeKey.high]

/-- A mask over the high byte alone compares the high byte alone. -/
theorem DecodeKey.masked_iff (k : DecodeKey) (m b : Byte) : k &&& (m ++ 0#8) = b ++ 0#8 ↔ k.high &&& m = b := by
  have bit (x : Byte) (n : Nat) : (x ++ 0#8 : DecodeKey).getLsbD n = if n < 8 then false else x.getLsbD (n - 8) := by
    have h : (x ++ 0#8).getLsbD n = _ := BitVec.getLsbD_append
    simpa using h
  constructor
  · intro h
    apply BitVec.eq_of_getLsbD_eq
    intro j hj
    have := congrArg (·.getLsbD (8 + j)) h
    simpa [BitVec.getLsbD_and, bit, DecodeKey.high, hj] using this
  · intro h
    apply BitVec.eq_of_getLsbD_eq
    intro j hj
    by_cases low : j < 8
    · simp [BitVec.getLsbD_and, bit, low]
    · have := congrArg (·.getLsbD (j - 8)) h
      have hj' : j - 8 < 8 := by omega
      simpa [BitVec.getLsbD_and, bit, low, DecodeKey.high, hj', show 8 + (j - 8) = j by omega] using this

end Sys2Proof
end

