-- ==== Sys2Proof/Laws/State.lean ====
section
/-! SUPPORT. What each update of the state leaves in each field, and what a register reads after it. -/

namespace Sys2Proof.Machine

/-! ## Registers -/

@[simp] theorem Regs.get_set_same (r : Reg) (v : Byte) (f : Regs) : (f.set r v).get r = v := by
  cases r <;> rfl

theorem Regs.get_set_ne {q r : Reg} (h : q ≠ r) (v : Byte) (f : Regs) : (f.set r v).get q = f.get q := by
  cases q <;> cases r <;> first | rfl | exact absurd rfl h

@[simp] theorem State.read_write_same (r : Reg) (v : Byte) (s : State) : (s.write r v).read r = v :=
  Regs.get_set_same r v s.regs

theorem State.read_write_ne {q r : Reg} (h : q ≠ r) (v : Byte) (s : State) : (s.write r v).read q = s.read q :=
  Regs.get_set_ne h v s.regs

theorem State.read_write (q r : Reg) (v : Byte) (s : State) :
    (s.write r v).read q = if q = r then v else s.read q := by
  by_cases h : q = r
  · subst h; simp
  · simp [h, State.read_write_ne h]

/-! ## `write` -/

@[simp] theorem State.write_rx (r : Reg) (v : Byte) (s : State) : (s.write r v).rx = s.rx := rfl
@[simp] theorem State.write_tx (r : Reg) (v : Byte) (s : State) : (s.write r v).tx = s.tx := rfl
@[simp] theorem State.write_suspended (r : Reg) (v : Byte) (s : State) : (s.write r v).suspended = s.suspended := rfl
@[simp] theorem State.write_life (r : Reg) (v : Byte) (s : State) : (s.write r v).life = s.life := rfl
@[simp] theorem State.write_events (r : Reg) (v : Byte) (s : State) : (s.write r v).events = s.events := rfl
@[simp] theorem State.write_returned (r : Reg) (v : Byte) (s : State) : (s.write r v).returned = s.returned := rfl
@[simp] theorem State.write_cfg (r : Reg) (v : Byte) (s : State) : (s.write r v).cfg = s.cfg := rfl
@[simp] theorem State.write_draw (r : Reg) (v : Byte) (s : State) : (s.write r v).draw = s.draw := rfl
@[simp] theorem State.write_schedule (r : Reg) (v : Byte) (s : State) : (s.write r v).schedule = s.schedule := rfl

/-! ## `setRegs` -/

@[simp] theorem State.setRegs_regs (f : Regs) (s : State) : (s.setRegs f).regs = f := rfl
@[simp] theorem State.setRegs_rx (f : Regs) (s : State) : (s.setRegs f).rx = s.rx := rfl
@[simp] theorem State.setRegs_tx (f : Regs) (s : State) : (s.setRegs f).tx = s.tx := rfl
@[simp] theorem State.setRegs_suspended (f : Regs) (s : State) : (s.setRegs f).suspended = s.suspended := rfl
@[simp] theorem State.setRegs_life (f : Regs) (s : State) : (s.setRegs f).life = s.life := rfl
@[simp] theorem State.setRegs_events (f : Regs) (s : State) : (s.setRegs f).events = s.events := rfl
@[simp] theorem State.setRegs_returned (f : Regs) (s : State) : (s.setRegs f).returned = s.returned := rfl
@[simp] theorem State.setRegs_cfg (f : Regs) (s : State) : (s.setRegs f).cfg = s.cfg := rfl
@[simp] theorem State.setRegs_draw (f : Regs) (s : State) : (s.setRegs f).draw = s.draw := rfl
@[simp] theorem State.setRegs_schedule (f : Regs) (s : State) : (s.setRegs f).schedule = s.schedule := rfl
@[simp] theorem State.setRegs_read (f : Regs) (s : State) (r : Reg) : (s.setRegs f).read r = f.get r := rfl

/-! ## `setRx` -/

@[simp] theorem State.setRx_regs (q : List Byte) (s : State) : (s.setRx q).regs = s.regs := rfl
@[simp] theorem State.setRx_rx (q : List Byte) (s : State) : (s.setRx q).rx = q := rfl
@[simp] theorem State.setRx_tx (q : List Byte) (s : State) : (s.setRx q).tx = s.tx := rfl
@[simp] theorem State.setRx_suspended (q : List Byte) (s : State) : (s.setRx q).suspended = s.suspended := rfl
@[simp] theorem State.setRx_life (q : List Byte) (s : State) : (s.setRx q).life = s.life := rfl
@[simp] theorem State.setRx_events (q : List Byte) (s : State) : (s.setRx q).events = s.events := rfl
@[simp] theorem State.setRx_returned (q : List Byte) (s : State) : (s.setRx q).returned = s.returned := rfl
@[simp] theorem State.setRx_cfg (q : List Byte) (s : State) : (s.setRx q).cfg = s.cfg := rfl
@[simp] theorem State.setRx_draw (q : List Byte) (s : State) : (s.setRx q).draw = s.draw := rfl
@[simp] theorem State.setRx_schedule (q : List Byte) (s : State) : (s.setRx q).schedule = s.schedule := rfl
@[simp] theorem State.setRx_read (q : List Byte) (s : State) (r : Reg) : (s.setRx q).read r = s.read r := rfl

/-! ## `setTx` -/

@[simp] theorem State.setTx_regs (q : List Byte) (s : State) : (s.setTx q).regs = s.regs := rfl
@[simp] theorem State.setTx_rx (q : List Byte) (s : State) : (s.setTx q).rx = s.rx := rfl
@[simp] theorem State.setTx_tx (q : List Byte) (s : State) : (s.setTx q).tx = q := rfl
@[simp] theorem State.setTx_suspended (q : List Byte) (s : State) : (s.setTx q).suspended = s.suspended := rfl
@[simp] theorem State.setTx_life (q : List Byte) (s : State) : (s.setTx q).life = s.life := rfl
@[simp] theorem State.setTx_events (q : List Byte) (s : State) : (s.setTx q).events = s.events := rfl
@[simp] theorem State.setTx_returned (q : List Byte) (s : State) : (s.setTx q).returned = s.returned := rfl
@[simp] theorem State.setTx_cfg (q : List Byte) (s : State) : (s.setTx q).cfg = s.cfg := rfl
@[simp] theorem State.setTx_draw (q : List Byte) (s : State) : (s.setTx q).draw = s.draw := rfl
@[simp] theorem State.setTx_schedule (q : List Byte) (s : State) : (s.setTx q).schedule = s.schedule := rfl
@[simp] theorem State.setTx_read (q : List Byte) (s : State) (r : Reg) : (s.setTx q).read r = s.read r := rfl

/-! ## `setSuspended` -/

@[simp] theorem State.setSuspended_regs (b : Bool) (s : State) : (s.setSuspended b).regs = s.regs := rfl
@[simp] theorem State.setSuspended_rx (b : Bool) (s : State) : (s.setSuspended b).rx = s.rx := rfl
@[simp] theorem State.setSuspended_tx (b : Bool) (s : State) : (s.setSuspended b).tx = s.tx := rfl
@[simp] theorem State.setSuspended_suspended (b : Bool) (s : State) : (s.setSuspended b).suspended = b := rfl
@[simp] theorem State.setSuspended_life (b : Bool) (s : State) : (s.setSuspended b).life = s.life := rfl
@[simp] theorem State.setSuspended_events (b : Bool) (s : State) : (s.setSuspended b).events = s.events := rfl
@[simp] theorem State.setSuspended_returned (b : Bool) (s : State) : (s.setSuspended b).returned = s.returned := rfl
@[simp] theorem State.setSuspended_cfg (b : Bool) (s : State) : (s.setSuspended b).cfg = s.cfg := rfl
@[simp] theorem State.setSuspended_draw (b : Bool) (s : State) : (s.setSuspended b).draw = s.draw := rfl
@[simp] theorem State.setSuspended_schedule (b : Bool) (s : State) : (s.setSuspended b).schedule = s.schedule := rfl
@[simp] theorem State.setSuspended_read (b : Bool) (s : State) (r : Reg) : (s.setSuspended b).read r = s.read r := rfl

/-! ## `setLife` -/

@[simp] theorem State.setLife_regs (l : Life) (s : State) : (s.setLife l).regs = s.regs := rfl
@[simp] theorem State.setLife_rx (l : Life) (s : State) : (s.setLife l).rx = s.rx := rfl
@[simp] theorem State.setLife_tx (l : Life) (s : State) : (s.setLife l).tx = s.tx := rfl
@[simp] theorem State.setLife_suspended (l : Life) (s : State) : (s.setLife l).suspended = s.suspended := rfl
@[simp] theorem State.setLife_life (l : Life) (s : State) : (s.setLife l).life = l := rfl
@[simp] theorem State.setLife_events (l : Life) (s : State) : (s.setLife l).events = s.events := rfl
@[simp] theorem State.setLife_returned (l : Life) (s : State) : (s.setLife l).returned = s.returned := rfl
@[simp] theorem State.setLife_cfg (l : Life) (s : State) : (s.setLife l).cfg = s.cfg := rfl
@[simp] theorem State.setLife_draw (l : Life) (s : State) : (s.setLife l).draw = s.draw := rfl
@[simp] theorem State.setLife_schedule (l : Life) (s : State) : (s.setLife l).schedule = s.schedule := rfl
@[simp] theorem State.setLife_read (l : Life) (s : State) (r : Reg) : (s.setLife l).read r = s.read r := rfl

/-! ## `emitAll` -/

@[simp] theorem State.emitAll_regs (es : List Event) (s : State) : (s.emitAll es).regs = s.regs := rfl
@[simp] theorem State.emitAll_rx (es : List Event) (s : State) : (s.emitAll es).rx = s.rx := rfl
@[simp] theorem State.emitAll_tx (es : List Event) (s : State) : (s.emitAll es).tx = s.tx := rfl
@[simp] theorem State.emitAll_suspended (es : List Event) (s : State) : (s.emitAll es).suspended = s.suspended := rfl
@[simp] theorem State.emitAll_life (es : List Event) (s : State) : (s.emitAll es).life = s.life := rfl
@[simp] theorem State.emitAll_events (es : List Event) (s : State) : (s.emitAll es).events = s.events ++ es := rfl
@[simp] theorem State.emitAll_returned (es : List Event) (s : State) : (s.emitAll es).returned = s.returned := rfl
@[simp] theorem State.emitAll_cfg (es : List Event) (s : State) : (s.emitAll es).cfg = s.cfg := rfl
@[simp] theorem State.emitAll_draw (es : List Event) (s : State) : (s.emitAll es).draw = s.draw := rfl
@[simp] theorem State.emitAll_schedule (es : List Event) (s : State) : (s.emitAll es).schedule = s.schedule := rfl
@[simp] theorem State.emitAll_read (es : List Event) (s : State) (r : Reg) : (s.emitAll es).read r = s.read r := rfl

/-! ## `setReturned` -/

@[simp] theorem State.setReturned_regs (v : Option Byte) (s : State) : (s.setReturned v).regs = s.regs := rfl
@[simp] theorem State.setReturned_rx (v : Option Byte) (s : State) : (s.setReturned v).rx = s.rx := rfl
@[simp] theorem State.setReturned_tx (v : Option Byte) (s : State) : (s.setReturned v).tx = s.tx := rfl
@[simp] theorem State.setReturned_suspended (v : Option Byte) (s : State) : (s.setReturned v).suspended = s.suspended := rfl
@[simp] theorem State.setReturned_life (v : Option Byte) (s : State) : (s.setReturned v).life = s.life := rfl
@[simp] theorem State.setReturned_events (v : Option Byte) (s : State) : (s.setReturned v).events = s.events := rfl
@[simp] theorem State.setReturned_returned (v : Option Byte) (s : State) : (s.setReturned v).returned = v := rfl
@[simp] theorem State.setReturned_cfg (v : Option Byte) (s : State) : (s.setReturned v).cfg = s.cfg := rfl
@[simp] theorem State.setReturned_draw (v : Option Byte) (s : State) : (s.setReturned v).draw = s.draw := rfl
@[simp] theorem State.setReturned_schedule (v : Option Byte) (s : State) : (s.setReturned v).schedule = s.schedule := rfl
@[simp] theorem State.setReturned_read (v : Option Byte) (s : State) (r : Reg) : (s.setReturned v).read r = s.read r := rfl

/-! ## `setCfg` -/

@[simp] theorem State.setCfg_regs (c : Config) (s : State) : (s.setCfg c).regs = s.regs := rfl
@[simp] theorem State.setCfg_rx (c : Config) (s : State) : (s.setCfg c).rx = s.rx := rfl
@[simp] theorem State.setCfg_tx (c : Config) (s : State) : (s.setCfg c).tx = s.tx := rfl
@[simp] theorem State.setCfg_suspended (c : Config) (s : State) : (s.setCfg c).suspended = s.suspended := rfl
@[simp] theorem State.setCfg_life (c : Config) (s : State) : (s.setCfg c).life = s.life := rfl
@[simp] theorem State.setCfg_events (c : Config) (s : State) : (s.setCfg c).events = s.events := rfl
@[simp] theorem State.setCfg_returned (c : Config) (s : State) : (s.setCfg c).returned = s.returned := rfl
@[simp] theorem State.setCfg_cfg (c : Config) (s : State) : (s.setCfg c).cfg = c := rfl
@[simp] theorem State.setCfg_draw (c : Config) (s : State) : (s.setCfg c).draw = s.draw := rfl
@[simp] theorem State.setCfg_schedule (c : Config) (s : State) : (s.setCfg c).schedule = s.schedule := rfl
@[simp] theorem State.setCfg_read (c : Config) (s : State) (r : Reg) : (s.setCfg c).read r = s.read r := rfl

/-! ## `setDraw` -/

@[simp] theorem State.setDraw_regs (d : Draw) (s : State) : (s.setDraw d).regs = s.regs := rfl
@[simp] theorem State.setDraw_rx (d : Draw) (s : State) : (s.setDraw d).rx = s.rx := rfl
@[simp] theorem State.setDraw_tx (d : Draw) (s : State) : (s.setDraw d).tx = s.tx := rfl
@[simp] theorem State.setDraw_suspended (d : Draw) (s : State) : (s.setDraw d).suspended = s.suspended := rfl
@[simp] theorem State.setDraw_life (d : Draw) (s : State) : (s.setDraw d).life = s.life := rfl
@[simp] theorem State.setDraw_events (d : Draw) (s : State) : (s.setDraw d).events = s.events := rfl
@[simp] theorem State.setDraw_returned (d : Draw) (s : State) : (s.setDraw d).returned = s.returned := rfl
@[simp] theorem State.setDraw_cfg (d : Draw) (s : State) : (s.setDraw d).cfg = s.cfg := rfl
@[simp] theorem State.setDraw_draw (d : Draw) (s : State) : (s.setDraw d).draw = d := rfl
@[simp] theorem State.setDraw_schedule (d : Draw) (s : State) : (s.setDraw d).schedule = s.schedule := rfl
@[simp] theorem State.setDraw_read (d : Draw) (s : State) (r : Reg) : (s.setDraw d).read r = s.read r := rfl

/-! ## `setSchedule` -/

@[simp] theorem State.setSchedule_regs (l : List Input) (s : State) : (s.setSchedule l).regs = s.regs := rfl
@[simp] theorem State.setSchedule_rx (l : List Input) (s : State) : (s.setSchedule l).rx = s.rx := rfl
@[simp] theorem State.setSchedule_tx (l : List Input) (s : State) : (s.setSchedule l).tx = s.tx := rfl
@[simp] theorem State.setSchedule_suspended (l : List Input) (s : State) : (s.setSchedule l).suspended = s.suspended := rfl
@[simp] theorem State.setSchedule_life (l : List Input) (s : State) : (s.setSchedule l).life = s.life := rfl
@[simp] theorem State.setSchedule_events (l : List Input) (s : State) : (s.setSchedule l).events = s.events := rfl
@[simp] theorem State.setSchedule_returned (l : List Input) (s : State) : (s.setSchedule l).returned = s.returned := rfl
@[simp] theorem State.setSchedule_cfg (l : List Input) (s : State) : (s.setSchedule l).cfg = s.cfg := rfl
@[simp] theorem State.setSchedule_draw (l : List Input) (s : State) : (s.setSchedule l).draw = s.draw := rfl
@[simp] theorem State.setSchedule_schedule (l : List Input) (s : State) : (s.setSchedule l).schedule = l := rfl
@[simp] theorem State.setSchedule_read (l : List Input) (s : State) (r : Reg) : (s.setSchedule l).read r = s.read r := rfl

end Sys2Proof.Machine
end

