-- ==== Sys2Proof/Laws/Ops.lean ====
section
/-! SUPPORT. One lemma for each shared operation, saying everything it can do; the laws of frames, of fetching and of
one step. -/

namespace Sys2Proof.Machine

/-! ## Frames -/

theorem Frame.refl (w : List Part) (s : State) : Frame w s s := fun p _ => by cases p <;> rfl

theorem Frame.mono {w w' : List Part} {s t : State} (h : Frame w s t) (sub : ∀ p ∈ w, p ∈ w') : Frame w' s t :=
  fun p hp => h p fun hw => hp (sub p hw)

theorem Part.same_trans {s t u : State} (p : Part) (a : p.same s t) (b : p.same t u) : p.same s u := by
  cases p <;> exact Eq.trans b a

theorem Frame.trans {w : List Part} {s t u : State} (a : Frame w s t) (b : Frame w t u) : Frame w s u :=
  fun p hp => p.same_trans (a p hp) (b p hp)

/-- Writing one register changes that register alone. -/
theorem write_frame (r : Reg) (v : Byte) (s : State) : Frame [.reg r] s (s.write r v) := by
  intro p hp
  cases p with
  | reg q => exact State.read_write_ne (fun h => hp (by simp [h])) _ _
  | _ => rfl

/-- Register files that read alike are alike. -/
theorem Regs.ext_get {f g : Regs} (h : ∀ r, f.get r = g.get r) : f = g := by
  cases f
  cases g
  have rbr := h .rbr
  have thr := h .thr
  have ier := h .ier
  have lcr := h .lcr
  have mcr := h .mcr
  have scr := h .scr
  have dll := h .dll
  have dlm := h .dlm
  simp only [Regs.get] at rbr thr ier lcr mcr scr dll dlm
  simp [rbr, thr, ier, lcr, mcr, scr, dll, dlm]

/-- Two states that differ at most in one register differ by one write. -/
theorem Frame.eq_write {r : Reg} {s t : State} (h : Frame [.reg r] s t) : t = s.write r (t.read r) := by
  have regs : t.regs = (s.write r (t.read r)).regs := by
    apply Regs.ext_get
    intro q
    change t.read q = (s.write r (t.read r)).read q
    by_cases same : q = r
    · rw [same, State.read_write_same]
    · rw [State.read_write_ne same]; exact h (.reg q) (by simp [same])
  have rx := h .rx (by simp)
  have tx := h .tx (by simp)
  have suspended := h .suspended (by simp)
  have life := h .life (by simp)
  have events := h .events (by simp)
  have returned := h .returned (by simp)
  have cfg := h .cfg (by simp)
  have draw := h .draw (by simp)
  have schedule := h .schedule (by simp)
  generalize t.read r = v at regs ⊢
  cases t
  cases s
  simp only [Part.same] at rx tx suspended life events returned cfg draw schedule
  subst rx tx suspended life events returned cfg draw schedule
  exact congrArg (fun f => State.mk f _ _ _ _ _ _ _ _ _) regs

/-! ## How operations begin and end -/

theorem whenRunning_of_running {s : State} (h : s.life = .running) (op : State → Result) : whenRunning s op = op s := by
  simp [whenRunning, h]

/-- An operation behind the lifecycle precondition completes only in `Running`. -/
theorem whenRunning_next {s t : State} {op : State → Result} (h : whenRunning s op = .next t) :
    s.life = .running ∧ op s = .next t := by
  unfold whenRunning at h
  split at h <;> first | exact ⟨‹_›, h⟩ | cases h

theorem whenRunning_aborted {s : State} (h : s.life = .aborted) (op : State → Result) :
    whenRunning s op = .fault .deviceAborted := by
  simp [whenRunning, h]

theorem whenRunning_stopped {s : State} (h : s.life = .stopped) (op : State → Result) :
    whenRunning s op = .refused .deviceStopped := by
  simp [whenRunning, h]

theorem whenRunning_unconstructed {s : State} (h : s.life = .unconstructed) (op : State → Result) :
    whenRunning s op = .refused .notConstructed := by
  simp [whenRunning, h]

@[simp] theorem emit_eq (e : Event) (s : State) : s.emit e = s.emitAll [e] := rfl

@[simp] theorem trace_eq (kind : AccessKind) (off : Offset) (v : Byte) (s : State) :
    s.trace kind off v = s.emitAll (traceEvents s.cfg kind off v) := rfl

theorem finish_next (s : State) : finish s = .next (s.setReturned none) := rfl

theorem finishLoad_next (off : Offset) (v : Byte) (s : State) :
    finishLoad off v s = .next ((s.emitAll (traceEvents s.cfg .load off v)).setReturned (some v)) := rfl

theorem finishStore_next (off : Offset) (v : Byte) (s : State) :
    finishStore off v s = .next ((s.emitAll (traceEvents s.cfg .store off v)).setReturned none) := rfl

theorem loadReg_running {s : State} (h : s.life = .running) (r : Reg) (off : Offset) :
    loadReg r off s =
      .next ((s.emitAll (traceEvents s.cfg .load off (s.read r))).setReturned (some (s.read r))) := by
  rw [loadReg, whenRunning_of_running h, finishLoad_next]

theorem storeReg_running {s : State} (h : s.life = .running) (r : Reg) (off : Offset) (stored v : Byte) :
    storeReg r off stored v s =
      .next (((s.write r stored).emitAll (traceEvents s.cfg .store off v)).setReturned none) := by
  rw [storeReg, whenRunning_of_running h, finishStore_next]; rfl

theorem storeDiscarded_running {s : State} (h : s.life = .running) (off : Offset) (v : Byte) :
    storeDiscarded off v s = .next ((s.emitAll (traceEvents s.cfg .store off v)).setReturned none) := by
  rw [storeDiscarded, whenRunning_of_running h, finishStore_next]

theorem raiseDeviceAbort_next (reason : AbortReason) (s : State) :
    raiseDeviceAbort reason s = .next (((s.emitAll [.abort reason]).setLife .aborted).setReturned none) := rfl

/-- Everything a construction can do. -/
theorem construct_cases (s : State) :
    (s.draw.config.wf = false ∧ construct s = .refused .illegalConfiguration) ∨
      (s.draw.config.wf = true ∧ s.draw.fatal = true ∧ construct s = raiseDeviceAbort .startup s) ∨
      (s.draw.config.wf = true ∧ s.draw.fatal = false ∧ construct s = .next (s.constructed.setReturned none)) := by
  cases hc : s.draw.config.wf <;> cases h : s.draw.fatal <;> simp [construct, hc, h, finish_next]

/-- CONSTRUCT completes only before the first construction and in `Stopped`. -/
theorem execConstruct_next {s t : State} (h : execConstruct s = .next t) :
    (s.life = .unconstructed ∨ s.life = .stopped) ∧ construct s = .next t := by
  unfold execConstruct at h
  split at h <;> simp_all

/-! ## The FIFOs -/

theorem latchRbr_empty {s : State} (h : s.rx = []) : s.latchRbr = s := by simp [State.latchRbr, h]

theorem latchRbr_cons {s : State} {b : Byte} {rest : List Byte} (h : s.rx = b :: rest) :
    s.latchRbr = (s.write .rbr b).setRx rest := by simp [State.latchRbr, h]

@[simp] theorem latchRbr_rx (s : State) : s.latchRbr.rx = s.rx.tail := by
  unfold State.latchRbr; split <;> simp_all

@[simp] theorem latchRbr_rbr (s : State) : s.latchRbr.read .rbr = s.rx.headD (s.read .rbr) := by
  unfold State.latchRbr; split <;> simp_all

/-- Latching RBR changes RBR and the receive FIFO alone. -/
theorem latchRbr_frame (s : State) : Frame [.reg .rbr, .rx] s s.latchRbr := by
  unfold State.latchRbr
  split
  · exact Frame.refl _ _
  · intro p hp
    cases p with
    | reg r => exact State.read_write_ne (fun h => hp (by simp [h])) _ _
    | rx => simp at hp
    | _ => rfl

theorem readOne_empty {s : State} (h : s.rx = []) : s.readOne = (0, s) := by simp [State.readOne, h]

theorem readOne_cons {s : State} {b : Byte} {rest : List Byte} (h : s.rx = b :: rest) :
    s.readOne = (b, s.setRx rest) := by simp [State.readOne, h]

@[simp] theorem rxPush_eq (b : Byte) (s : State) : s.rxPush b = s.setRx (s.rx ++ [b]) := rfl

@[simp] theorem writeOne_eq (v : Byte) (s : State) : s.writeOne v = s.setTx (s.tx ++ [v]) := rfl

theorem hasInput_iff (s : State) : s.hasInput = true ↔ s.rx ≠ [] := by
  cases h : s.rx <;> simp [State.hasInput, h]

theorem rxFull_iff (s : State) : s.rxFull = true ↔ ∃ depth, s.cfg.rxDepth = some depth ∧ depth ≤ s.rx.length := by
  unfold State.rxFull
  split <;> simp_all

/-- HOST_RX in `Running` does one of three things. -/
theorem execHostRx_cases {s : State} (h : s.life = .running) (b : Byte) :
    (s.suspended = true ∧ execHostRx b s = .next (s.setReturned none)) ∨
      (s.suspended = false ∧ s.rxFull = true ∧ execHostRx b s = .refused .rxFull) ∨
      (s.suspended = false ∧ s.rxFull = false ∧
        execHostRx b s = .next ((s.setRx (s.rx ++ [b])).setReturned none)) := by
  cases hs : s.suspended <;> cases hf : s.rxFull <;>
    simp [execHostRx, whenRunning_of_running h, hs, hf, finish_next]

/-- HOST_TX_POP in `Running` has a step exactly when a byte is queued. -/
theorem execHostTxPop_cases {s : State} (h : s.life = .running) :
    (s.tx = [] ∧ execHostTxPop s = .refused .txEmpty) ∨
      ∃ b rest, s.tx = b :: rest ∧
        execHostTxPop s =
          .next (((s.setTx rest).emitAll (if s.draw.ok then [.hostOut b] else [])).setReturned none) := by
  cases ht : s.tx with
  | nil => exact .inl ⟨rfl, by simp [execHostTxPop, whenRunning_of_running h, ht]⟩
  | cons b rest =>
    refine .inr ⟨b, rest, rfl, ?_⟩
    cases hk : s.draw.ok <;>
      simp [execHostTxPop, whenRunning_of_running h, ht, hk, finish_next, State.emitAll, State.setTx,
        State.setReturned]

/-! ## Bus accesses -/

theorem windowOffset_of_offset (c : Config) (off : Offset) : windowOffset c (c.uartBase + off.toNat) = some off := by
  have h := off.isLt
  simp [windowOffset, Config.inWindow, h]

theorem windowOffset_eq_none {c : Config} {addr : Nat} (h : c.inWindow addr = false) : windowOffset c addr = none := by
  simp [windowOffset, h]

/-! ## Fetching -/

theorem fetch_request {s : State} {w : RequestWord} {d : Draw} {rest : List Input}
    (h : s.schedule = .request w d :: rest) : fetch s = fetchWord w ((s.setSchedule rest).setDraw d) := by
  simp [fetch, h, fetchInput]

theorem fetch_bus {s : State} {a : BusAccess} {rest : List Input} {r : Request} (h : s.schedule = .bus a :: rest)
    (hr : busRequest s.cfg a = .ok r) : fetch s = fetchWord r.word (s.setSchedule rest) := by
  simp [fetch, h, fetchInput, hr]

theorem fetch_bridgeFault {s : State} {rest : List Input} (h : s.schedule = .bridgeFault :: rest) :
    fetch s = .bridgeFault (s.setSchedule rest) := by
  simp [fetch, h, fetchInput]

/-- A fetched word is decoded under the DLAB of the state it runs from. -/
theorem fetchWord_op {w : RequestWord} {s t : State} {i : Instr} (h : fetchWord w s = .op i t) :
    t = s ∧ decode w s.dlab = .ok i := by
  unfold fetchWord at h
  split at h <;> simp_all

theorem fetchWord_ne_bridgeFault (w : RequestWord) (s t : State) : fetchWord w s ≠ .bridgeFault t := by
  unfold fetchWord; split <;> simp

/-- Fetching touches only the schedule and the draws. -/
theorem fetch_op_frame {s t : State} {i : Instr} (h : fetch s = .op i t) : Frame [.draw, .schedule] s t := by
  unfold fetch at h
  split at h
  · cases h
  · unfold fetchInput at h
    split at h
    · obtain ⟨rfl, -⟩ := fetchWord_op h
      intro p hp; cases p <;> first | rfl | simp at hp
    · split at h
      · obtain ⟨rfl, -⟩ := fetchWord_op h
        intro p hp; cases p <;> first | rfl | simp at hp
      · cases h
    · cases h

theorem fetch_bridgeFault_frame {s t : State} (h : fetch s = .bridgeFault t) : Frame [.schedule] s t := by
  unfold fetch at h
  split at h
  · cases h
  · unfold fetchInput at h
    split at h
    · exact absurd h (fetchWord_ne_bridgeFault _ _ _)
    · split at h
      · exact absurd h (fetchWord_ne_bridgeFault _ _ _)
      · cases h
    · cases h
      intro p hp; cases p <;> first | rfl | simp at hp

/-- Everything a step that completes can be: an operation of the table, or the bridge's fault step. -/
theorem step_next {s t : State} (h : step s = .next t) :
    (∃ i u, fetch s = .op i u ∧ exec i u = .next t) ∨ (∃ u, fetch s = .bridgeFault u ∧ execBridgeFault u = .next t) := by
  unfold step at h
  split at h
  · exact .inl ⟨_, _, ‹_›, h⟩
  · exact .inr ⟨_, ‹_›, h⟩
  · cases h

/-- The bridge's fault step completes only in `Running`, into `Aborted`. -/
theorem execBridgeFault_next {s t : State} (h : execBridgeFault s = .next t) :
    s.life = .running ∧ t = ((s.emitAll [.abort .wait]).setLife .aborted).setReturned none := by
  obtain ⟨hr, hn⟩ := whenRunning_next h
  rw [raiseDeviceAbort_next] at hn
  exact ⟨hr, by injection hn with hn; exact hn.symm⟩

end Sys2Proof.Machine
end

