-- ==== Sys2Proof/Laws/Exec.lean ====
section
/-! SUPPORT. What each operation does on a running device, and one inversion lemma for all operations: everything an
operation that completes can have done. -/

namespace Sys2Proof.Machine

theorem exec_loadRbr_running {s : State} (h : s.life = .running) :
    exec .loadRbr s =
      .next ((s.latchRbr.emitAll (traceEvents s.cfg .load 0 (s.latchRbr.read .rbr))).setReturned
        (some (s.latchRbr.read .rbr))) := by
  have same : s.latchRbr.cfg = s.cfg := latchRbr_frame s .cfg (by simp)
  rw [exec, execLoadRbr, whenRunning_of_running h, finishLoad_next, same]

theorem exec_loadDll_running {s : State} (h : s.life = .running) :
    exec .loadDll s =
      .next ((s.emitAll (traceEvents s.cfg .load 0 (s.read .dll))).setReturned (some (s.read .dll))) :=
  loadReg_running h .dll 0

theorem exec_loadIer_running {s : State} (h : s.life = .running) :
    exec .loadIer s =
      .next ((s.emitAll (traceEvents s.cfg .load 1 (s.read .ier))).setReturned (some (s.read .ier))) :=
  loadReg_running h .ier 1

theorem exec_loadDlm_running {s : State} (h : s.life = .running) :
    exec .loadDlm s =
      .next ((s.emitAll (traceEvents s.cfg .load 1 (s.read .dlm))).setReturned (some (s.read .dlm))) :=
  loadReg_running h .dlm 1

theorem exec_loadLcr_running {s : State} (h : s.life = .running) :
    exec .loadLcr s =
      .next ((s.emitAll (traceEvents s.cfg .load 3 (s.read .lcr))).setReturned (some (s.read .lcr))) :=
  loadReg_running h .lcr 3

theorem exec_loadMcr_running {s : State} (h : s.life = .running) :
    exec .loadMcr s =
      .next ((s.emitAll (traceEvents s.cfg .load 4 (s.read .mcr))).setReturned (some (s.read .mcr))) :=
  loadReg_running h .mcr 4

theorem exec_loadScr_running {s : State} (h : s.life = .running) :
    exec .loadScr s =
      .next ((s.emitAll (traceEvents s.cfg .load 7 (s.read .scr))).setReturned (some (s.read .scr))) :=
  loadReg_running h .scr 7

theorem exec_loadIir_running {s : State} (h : s.life = .running) :
    exec .loadIir s = .next ((s.emitAll (traceEvents s.cfg .load 2 s.iir)).setReturned (some s.iir)) := by
  rw [exec, execLoadIir, whenRunning_of_running h, finishLoad_next]

theorem exec_loadLsr_running {s : State} (h : s.life = .running) :
    exec .loadLsr s = .next ((s.emitAll (traceEvents s.cfg .load 5 s.lsr)).setReturned (some s.lsr)) := by
  rw [exec, execLoadLsr, whenRunning_of_running h, finishLoad_next]

theorem exec_loadMsr_running {s : State} (h : s.life = .running) :
    exec .loadMsr s = .next ((s.emitAll (traceEvents s.cfg .load 6 s.msr)).setReturned (some s.msr)) := by
  rw [exec, execLoadMsr, whenRunning_of_running h, finishLoad_next]

theorem exec_storeThr_running {s : State} (h : s.life = .running) (v : Byte) :
    exec (.storeThr v) s =
      .next (((((s.write .thr v).setTx (s.tx ++ [v])).emitAll (traceEvents s.cfg .store 0 v))).setReturned none) := by
  rw [exec, execStoreThr, whenRunning_of_running h, finishStore_next]; rfl

theorem exec_storeDll_running {s : State} (h : s.life = .running) (v : Byte) :
    exec (.storeDll v) s =
      .next (((s.write .dll v).emitAll (traceEvents s.cfg .store 0 v)).setReturned none) :=
  storeReg_running h .dll 0 v v

theorem exec_storeIer_running {s : State} (h : s.life = .running) (v : Byte) :
    exec (.storeIer v) s =
      .next (((s.write .ier (maskIer s.cfg.codes v)).emitAll (traceEvents s.cfg .store 1 v)).setReturned none) :=
  storeReg_running h .ier 1 (maskIer s.cfg.codes v) v

theorem exec_storeDlm_running {s : State} (h : s.life = .running) (v : Byte) :
    exec (.storeDlm v) s =
      .next (((s.write .dlm v).emitAll (traceEvents s.cfg .store 1 v)).setReturned none) :=
  storeReg_running h .dlm 1 v v

theorem exec_storeLcr_running {s : State} (h : s.life = .running) (v : Byte) :
    exec (.storeLcr v) s =
      .next (((s.write .lcr v).emitAll (traceEvents s.cfg .store 3 v)).setReturned none) :=
  storeReg_running h .lcr 3 v v

theorem exec_storeMcr_running {s : State} (h : s.life = .running) (v : Byte) :
    exec (.storeMcr v) s =
      .next (((s.write .mcr v).emitAll (traceEvents s.cfg .store 4 v)).setReturned none) :=
  storeReg_running h .mcr 4 v v

theorem exec_storeScr_running {s : State} (h : s.life = .running) (v : Byte) :
    exec (.storeScr v) s =
      .next (((s.write .scr v).emitAll (traceEvents s.cfg .store 7 v)).setReturned none) :=
  storeReg_running h .scr 7 v v

theorem exec_storeFcr_running {s : State} (h : s.life = .running) (v : Byte) :
    exec (.storeFcr v) s = .next ((s.emitAll (traceEvents s.cfg .store 2 v)).setReturned none) :=
  storeDiscarded_running h 2 v

theorem exec_storeLsr_running {s : State} (h : s.life = .running) (v : Byte) :
    exec (.storeLsr v) s = .next ((s.emitAll (traceEvents s.cfg .store 5 v)).setReturned none) :=
  storeDiscarded_running h 5 v

theorem exec_storeMsr_running {s : State} (h : s.life = .running) (v : Byte) :
    exec (.storeMsr v) s = .next ((s.emitAll (traceEvents s.cfg .store 6 v)).setReturned none) :=
  storeDiscarded_running h 6 v

theorem exec_service_running {s : State} (h : s.life = .running) :
    exec .service s =
      .next ((s.emitAll (if s.irqCond then [.irqSignal s.cfg.irqLine] else [])).setReturned none) := by
  cases hc : s.irqCond <;>
    simp [exec, execService, whenRunning_of_running h, hc, finish_next, State.emitAll, State.setReturned]

theorem exec_suspend_running {s : State} (h : s.life = .running) :
    exec .suspend s = .next ((s.setSuspended true).setReturned none) := by
  rw [exec, execSuspend, whenRunning_of_running h, finish_next]

theorem exec_resume_running {s : State} (h : s.life = .running) :
    exec .resume s = .next ((s.setSuspended false).setReturned none) := by
  rw [exec, execResume, whenRunning_of_running h, finish_next]

theorem exec_stop_running {s : State} (h : s.life = .running) :
    exec .stop s =
      .next (((((s.emitAll ((s.tx.take s.draw.relayed).map .hostOut)).setTx []).setRx []).setLife .stopped).setReturned
        none) := by
  rw [exec, execStop, whenRunning_of_running h, finish_next]

/-- Everything an operation that completes can have done, by its shape. -/
inductive Effect : Instr → State → State → Prop where
  | loadRbr (s : State) :
      Effect .loadRbr s
        ((s.latchRbr.emitAll (traceEvents s.cfg .load 0 (s.latchRbr.read .rbr))).setReturned
          (some (s.latchRbr.read .rbr)))
  | load (i : Instr) (s : State) (off : Offset) (v : Byte) (plain : i ≠ .loadRbr)
      (isLoad : ∃ dlab, i = (Request.load off).select dlab) :
      Effect i s ((s.emitAll (traceEvents s.cfg .load off v)).setReturned (some v))
  | storeThr (s : State) (v : Byte) :
      Effect (.storeThr v) s
        ((((s.write .thr v).setTx (s.tx ++ [v])).emitAll (traceEvents s.cfg .store 0 v)).setReturned none)
  | store (i : Instr) (s : State) (r : Reg) (off : Offset) (stored v : Byte) (plain : i ≠ .storeThr v)
      (masked : r = .ier → stored = maskIer s.cfg.codes v) (isStore : ∃ dlab, i = (Request.store off v).select dlab) :
      Effect i s (((s.write r stored).emitAll (traceEvents s.cfg .store off v)).setReturned none)
  | discard (i : Instr) (s : State) (off : Offset) (v : Byte) (plain : i ≠ .storeThr v)
      (isStore : ∃ dlab, i = (Request.store off v).select dlab) :
      Effect i s ((s.emitAll (traceEvents s.cfg .store off v)).setReturned none)
  | service (s : State) :
      Effect .service s ((s.emitAll (if s.irqCond then [.irqSignal s.cfg.irqLine] else [])).setReturned none)
  | hostRxDiscards (s : State) (b : Byte) (suspended : s.suspended = true) :
      Effect (.hostRx b) s (s.setReturned none)
  | hostRxQueues (s : State) (b : Byte) (accepting : s.suspended = false) (room : s.rxFull = false) :
      Effect (.hostRx b) s ((s.setRx (s.rx ++ [b])).setReturned none)
  | hostTxPop (s : State) (b : Byte) (rest : List Byte) (oldest : s.tx = b :: rest) :
      Effect .hostTxPop s
        (((s.setTx rest).emitAll (if s.draw.ok then [.hostOut b] else [])).setReturned none)
  | suspend (s : State) : Effect .suspend s ((s.setSuspended true).setReturned none)
  | resume (s : State) : Effect .resume s ((s.setSuspended false).setReturned none)
  | stop (s : State) :
      Effect .stop s
        (((((s.emitAll ((s.tx.take s.draw.relayed).map .hostOut)).setTx []).setRx []).setLife .stopped).setReturned
          none)

/-- An operation other than CONSTRUCT completes only in `Running`. -/
theorem exec_next_running {i : Instr} {s t : State} (h : exec i s = .next t) (hi : i ≠ .construct) :
    s.life = .running := by
  cases i with
  | construct => exact absurd rfl hi
  | _ =>
    simp only [exec, execLoadRbr, execLoadDll, execLoadIer, execLoadDlm, execLoadIir, execLoadLcr, execLoadMcr,
      execLoadLsr, execLoadMsr, execLoadScr, execStoreThr, execStoreDll, execStoreIer, execStoreDlm, execStoreFcr,
      execStoreLcr, execStoreMcr, execStoreLsr, execStoreMsr, execStoreScr, execService, execHostRx, execHostTxPop,
      execSuspend, execResume, execStop, loadReg, storeReg, storeDiscarded] at h
    exact (whenRunning_next h).1

/-- The inversion lemma: an operation other than CONSTRUCT that completes had one of the effects listed. -/
theorem exec_effect {i : Instr} {s t : State} (h : exec i s = .next t) (hi : i ≠ .construct) :
    s.life = .running ∧ Effect i s t := by
  have hr := exec_next_running h hi
  refine ⟨hr, ?_⟩
  cases i with
  | construct => exact absurd rfl hi
  | hostRx b =>
    rcases execHostRx_cases hr b with ⟨a, e⟩ | ⟨_, _, e⟩ | ⟨a, a', e⟩ <;> rw [exec, e] at h <;> cases h
    · exact .hostRxDiscards _ _ a
    · exact .hostRxQueues _ _ a a'
  | hostTxPop =>
    rcases execHostTxPop_cases hr with ⟨_, e⟩ | ⟨b, rest, a, e⟩ <;> rw [exec, e] at h <;> cases h
    exact .hostTxPop _ _ _ a
  | loadRbr => rw [exec_loadRbr_running hr] at h; cases h; exact .loadRbr _
  | service => rw [exec_service_running hr] at h; cases h; exact .service _
  | suspend => rw [exec_suspend_running hr] at h; cases h; exact .suspend _
  | resume => rw [exec_resume_running hr] at h; cases h; exact .resume _
  | stop => rw [exec_stop_running hr] at h; cases h; exact .stop _
  | storeThr v => rw [exec_storeThr_running hr] at h; cases h; exact .storeThr _ _
  | loadDll => rw [exec_loadDll_running hr] at h; cases h; exact .load _ _ 0 _ (by simp) ⟨true, rfl⟩
  | loadIer => rw [exec_loadIer_running hr] at h; cases h; exact .load _ _ 1 _ (by simp) ⟨false, rfl⟩
  | loadDlm => rw [exec_loadDlm_running hr] at h; cases h; exact .load _ _ 1 _ (by simp) ⟨true, rfl⟩
  | loadIir => rw [exec_loadIir_running hr] at h; cases h; exact .load _ _ 2 _ (by simp) ⟨false, rfl⟩
  | loadLcr => rw [exec_loadLcr_running hr] at h; cases h; exact .load _ _ 3 _ (by simp) ⟨false, rfl⟩
  | loadMcr => rw [exec_loadMcr_running hr] at h; cases h; exact .load _ _ 4 _ (by simp) ⟨false, rfl⟩
  | loadLsr => rw [exec_loadLsr_running hr] at h; cases h; exact .load _ _ 5 _ (by simp) ⟨false, rfl⟩
  | loadMsr => rw [exec_loadMsr_running hr] at h; cases h; exact .load _ _ 6 _ (by simp) ⟨false, rfl⟩
  | loadScr => rw [exec_loadScr_running hr] at h; cases h; exact .load _ _ 7 _ (by simp) ⟨false, rfl⟩
  | storeDll v =>
    rw [exec_storeDll_running hr] at h; cases h; exact .store _ _ .dll 0 v v (by simp) (by simp) ⟨true, rfl⟩
  | storeIer v =>
    rw [exec_storeIer_running hr] at h; cases h; exact .store _ _ .ier 1 _ v (by simp) (by simp) ⟨false, rfl⟩
  | storeDlm v =>
    rw [exec_storeDlm_running hr] at h; cases h; exact .store _ _ .dlm 1 v v (by simp) (by simp) ⟨true, rfl⟩
  | storeLcr v =>
    rw [exec_storeLcr_running hr] at h; cases h; exact .store _ _ .lcr 3 v v (by simp) (by simp) ⟨false, rfl⟩
  | storeMcr v =>
    rw [exec_storeMcr_running hr] at h; cases h; exact .store _ _ .mcr 4 v v (by simp) (by simp) ⟨false, rfl⟩
  | storeScr v =>
    rw [exec_storeScr_running hr] at h; cases h; exact .store _ _ .scr 7 v v (by simp) (by simp) ⟨false, rfl⟩
  | storeFcr v => rw [exec_storeFcr_running hr] at h; cases h; exact .discard _ _ 2 v (by simp) ⟨false, rfl⟩
  | storeLsr v => rw [exec_storeLsr_running hr] at h; cases h; exact .discard _ _ 5 v (by simp) ⟨false, rfl⟩
  | storeMsr v => rw [exec_storeMsr_running hr] at h; cases h; exact .discard _ _ 6 v (by simp) ⟨false, rfl⟩

/-- CONSTRUCT that completes either aborted or made a new device, on a dead device and with a legal operand. -/
theorem exec_construct_effect {s t : State} (h : exec .construct s = .next t) :
    (s.life = .unconstructed ∨ s.life = .stopped) ∧ s.draw.config.wf = true ∧
      ((s.draw.fatal = true ∧ t = ((s.emitAll [.abort .startup]).setLife .aborted).setReturned none) ∨
        (s.draw.fatal = false ∧ t = s.constructed.setReturned none)) := by
  obtain ⟨dead, made⟩ := execConstruct_next h
  rcases construct_cases s with ⟨_, e⟩ | ⟨legal, f, e⟩ | ⟨legal, f, e⟩ <;> rw [e] at made <;> cases made
  · exact ⟨dead, legal, .inl ⟨f, rfl⟩⟩
  · exact ⟨dead, legal, .inr ⟨f, rfl⟩⟩

/-- A property that reads neither the draws nor the schedule is kept by every step when every operation and the bridge's
fault step keep it. -/
theorem step_keeps {P : State → Prop} (reads : ∀ s t, Frame [.draw, .schedule] s t → P s → P t)
    (ops : ∀ i s t, P s → exec i s = .next t → P t)
    (fault : ∀ s, P s → s.life = .running → P (((s.emitAll [.abort .wait]).setLife .aborted).setReturned none))
    {s t : State} (hs : P s) (h : step s = .next t) : P t := by
  rcases step_next h with ⟨i, u, hf, he⟩ | ⟨u, hf, he⟩
  · exact ops i u t (reads _ _ (fetch_op_frame hf) hs) he
  · obtain ⟨running, rfl⟩ := execBridgeFault_next he
    exact fault u (reads _ _ ((fetch_bridgeFault_frame hf).mono (by simp)) hs) running

/-- A run that completes took its first step and went on from there. -/
theorem run_succ_next {n : Nat} {s t : State} (h : run (n + 1) s = .next t) :
    ∃ u, step s = .next u ∧ run n u = .next t := by
  rw [run] at h
  split at h
  · exact ⟨_, ‹_›, h⟩
  · cases h
  · cases h

end Sys2Proof.Machine
end

