-- ==== Sys2Proof/Laws/PerInstr.lean ====
section
/-! SUPPORT. Per-instruction lemmas: the encoder's key of each operation fits that operation's row of
spec/opcode_table.json, under every DLAB value that reaches it. -/

namespace Sys2Proof.Laws.TablePattern

/-- The key of an operation fits its row of the opcode table. -/
def Statement (i : Instr) : Prop := ∀ dlab : Bool, i.wf dlab = true → i.pattern.fits (encodeKey dlab i) = true

theorem loadRbr : Statement .loadRbr := by unfold Statement; decide

theorem loadDll : Statement .loadDll := by unfold Statement; decide

theorem loadIer : Statement .loadIer := by unfold Statement; decide

theorem loadDlm : Statement .loadDlm := by unfold Statement; decide

theorem loadIir : Statement .loadIir := by unfold Statement; decide

theorem loadLcr : Statement .loadLcr := by unfold Statement; decide

theorem loadMcr : Statement .loadMcr := by unfold Statement; decide

theorem loadLsr : Statement .loadLsr := by unfold Statement; decide

theorem loadMsr : Statement .loadMsr := by unfold Statement; decide

theorem loadScr : Statement .loadScr := by unfold Statement; decide

theorem storeThr (v : Byte) : Statement (.storeThr v) := by revert v; unfold Statement; decide

theorem storeDll (v : Byte) : Statement (.storeDll v) := by revert v; unfold Statement; decide

theorem storeIer (v : Byte) : Statement (.storeIer v) := by revert v; unfold Statement; decide

theorem storeDlm (v : Byte) : Statement (.storeDlm v) := by revert v; unfold Statement; decide

theorem storeFcr (v : Byte) : Statement (.storeFcr v) := by revert v; unfold Statement; decide

theorem storeLcr (v : Byte) : Statement (.storeLcr v) := by revert v; unfold Statement; decide

theorem storeMcr (v : Byte) : Statement (.storeMcr v) := by revert v; unfold Statement; decide

theorem storeLsr (v : Byte) : Statement (.storeLsr v) := by revert v; unfold Statement; decide

theorem storeMsr (v : Byte) : Statement (.storeMsr v) := by revert v; unfold Statement; decide

theorem storeScr (v : Byte) : Statement (.storeScr v) := by revert v; unfold Statement; decide

theorem service : Statement .service := by unfold Statement; decide

theorem hostRx (b : Byte) : Statement (.hostRx b) := by revert b; unfold Statement; decide

theorem hostTxPop : Statement .hostTxPop := by unfold Statement; decide

theorem suspend : Statement .suspend := by unfold Statement; decide

theorem resume : Statement .resume := by unfold Statement; decide

theorem construct : Statement .construct := by unfold Statement; decide

theorem stop : Statement .stop := by unfold Statement; decide

end Sys2Proof.Laws.TablePattern
end

