-- ==== Sys2Proof/Laws/Safety.lean ====
section
/-! SUPPORT. The small laws of the bit tests and of what the event history shows. -/

namespace Sys2Proof.Machine

/-! ## Bit tests -/

theorem bitSet_bit7 (v : Byte) : bitSet v 0x80 = v.getLsbD 7 := by revert v; decide

theorem bitSet_bit0 (v : Byte) : bitSet v 0x01 = v.getLsbD 0 := by revert v; decide

/-- What a legal configuration says of its codes. -/
theorem Config.wf_codes {c : Config} (h : c.wf = true) :
    c.codes.ierErbfi = 0x01 ∧ c.codes.lcrDlab = 0x80 ∧
      c.codes.ierMask = c.codes.ierErbfi ||| c.codes.ierEtbei ||| c.codes.ierElsi ||| c.codes.ierEdssi ∧
      c.codes.ierMask &&& 0xF0 = 0 := by
  simp only [Config.wf, Codes.wf, Bool.and_eq_true, beq_iff_eq] at h
  exact ⟨h.2.1.1.1, h.2.1.1.2, h.2.1.2, h.2.2⟩

theorem maskIer_reserved {c : Config} (h : c.wf = true) (v : Byte) : maskIer c.codes v &&& 0xF0 = 0 := by
  rw [maskIer, BitVec.and_assoc, (Config.wf_codes h).2.2.2]
  exact BitVec.and_zero

theorem dlab_eq_bit7 {s : State} (h : s.cfg.wf = true) : s.dlab = (s.read .lcr).getLsbD 7 := by
  rw [State.dlab, (Config.wf_codes h).2.1, bitSet_bit7]

theorem irqCond_iff {s : State} (h : s.cfg.wf = true) :
    s.irqCond = true ↔ (s.read .ier).getLsbD 0 = true ∧ s.rx ≠ [] := by
  rw [State.irqCond, (Config.wf_codes h).1, bitSet_bit0, Bool.and_eq_true, hasInput_iff]

/-! ## The history without Trace records -/

@[simp] theorem untraced_append (a b : List Event) : untraced (a ++ b) = untraced a ++ untraced b := by
  simp [untraced]

@[simp] theorem untraced_traceEvents (c : Config) (kind : AccessKind) (off : Offset) (v : Byte) :
    untraced (traceEvents c kind off v) = [] := by
  unfold traceEvents; split <;> rfl

/-! ## The bytes sent to the host -/

@[simp] theorem hostOutput_append (a b : List Event) : hostOutput (a ++ b) = hostOutput a ++ hostOutput b := by
  simp [hostOutput]

@[simp] theorem hostOutput_traceEvents (c : Config) (kind : AccessKind) (off : Offset) (v : Byte) :
    hostOutput (traceEvents c kind off v) = [] := by
  unfold traceEvents; split <;> rfl

@[simp] theorem hostOutput_hostOut (l : List Byte) : hostOutput (l.map .hostOut) = l := by
  induction l with
  | nil => rfl
  | cons b rest ih => simpa [hostOutput, Event.hostByte?] using ih

end Sys2Proof.Machine
end

