-- ==== Sys2Proof/Tests/Slice0.lean ====
section
/-! SUPPORT. The model's own tests. Expected results come from spec/95_test_vectors.md (the id of the vector is in each
test's comment) or from the encoding tables of spec/30_encoding.md, and the witnesses show that the hypotheses of each
statement can be met together. -/

namespace Sys2Proof.Machine.Test

/-- A running device with `IRQ_LINE` 10, unbounded FIFOs and no trace. -/
def device : State where
  regs := { rbr := 0x00, thr := 0x00, ier := 0x00, lcr := 0x00, mcr := 0x00, scr := 0x00, dll := 0x00, dlm := 0x00 }
  rx := []
  tx := []
  suspended := false
  life := .running
  events := []
  returned := none
  cfg := { uartBase := 0x1000, irqLine := 10, rxDepth := none, traceEnabled := false, codes := .decided }
  draw :=
    { ok := true, relayed := 1, fatal := false,
      config := { uartBase := 0x2000, irqLine := 11, rxDepth := some 1, traceEnabled := false, codes := .decided },
      resetRbr := 0x51, resetThr := 0x52, resetScr := 0x53, resetDll := 0x54,
      resetDlm := 0x55 }
  schedule := []

/-- The device with the trace on. -/
def traced : State := { device with cfg := { device.cfg with traceEnabled := true } }

/-- The device with `RX_DEPTH` = 2 and a full receive FIFO. -/
def full : State := { device with cfg := { device.cfg with rxDepth := some 2 }, rx := [0x01, 0x02] }

/-- A part of the state an operation leaves, if it completes. -/
def after {α : Type} (i : Instr) (s : State) (f : State → α) : Option α := (next? (exec i s)).map f

/-- Why an operation is refused. -/
def refusal? : Result → Option Refusal
  | .refused r => some r
  | .next _ => none
  | .fault _ => none

/-- Why an operation faults. -/
def fault? : Result → Option Fault
  | .fault r => some r
  | .next _ => none
  | .refused _ => none

/-! ## WellFormed refuses ill-formed terms -/

theorem test_wf_refuses_banked_operations :
    Instr.wf true .loadRbr = false ∧ Instr.wf false .loadDll = false ∧ Instr.wf true (.storeThr 0) = false ∧
      Instr.wf false (.storeDlm 0) = false := by decide

theorem test_wf_refuses_zero_depth : Config.wf { device.cfg with rxDepth := some 0 } = false := by decide

theorem test_wf_refuses_codes_against_the_rules :
    Codes.wf { Codes.decided with lcrDlab := 0x40 } = false ∧ Codes.wf { Codes.decided with ierErbfi := 0x02 } = false ∧
      Codes.wf { Codes.decided with ierMask := 0x07 } = false ∧
      Codes.wf { Codes.decided with ierEdssi := 0x80, ierMask := 0x87 } = false ∧ Codes.wf .decided = true := by decide

theorem test_wf_refuses_addresses_outside_the_window :
    device.cfg.inWindow 0xFFF = false ∧ device.cfg.inWindow 0x1008 = false := by decide

theorem test_wf_refuses_wide_accesses :
    BusAccess.wf device.cfg (.read 0x1000 2) = false ∧ BusAccess.wf device.cfg (.write 0x1000 [0, 0]) = false := by decide

/-! ## Decoding: keys D, kind, offset, data written out from 30_encoding.md R71, R90 and R91 -/

/-- Loads (95_test_vectors.md section 2). -/
theorem test_decode_loads :
    decodeKey 0b0_0000_000_00000000 = .ok .loadRbr ∧ decodeKey 0b1_0000_000_00000000 = .ok .loadDll ∧
      decodeKey 0b0_0000_001_00000000 = .ok .loadIer ∧ decodeKey 0b1_0000_001_00000000 = .ok .loadDlm ∧
      decodeKey 0b1_0000_010_00000000 = .ok .loadIir ∧ decodeKey 0b0_0000_011_00000000 = .ok .loadLcr ∧
      decodeKey 0b0_0000_100_00000000 = .ok .loadMcr ∧ decodeKey 0b0_0000_101_00000000 = .ok .loadLsr ∧
      decodeKey 0b0_0000_110_00000000 = .ok .loadMsr ∧ decodeKey 0b0_0000_111_11111111 = .ok .loadScr := by decide

/-- Stores (95_test_vectors.md section 2). -/
theorem test_decode_stores :
    decodeKey 0b0_0001_000_01010101 = .ok (.storeThr 0x55) ∧ decodeKey 0b1_0001_000_01010101 = .ok (.storeDll 0x55) ∧
      decodeKey 0b0_0001_001_11110001 = .ok (.storeIer 0xF1) ∧ decodeKey 0b1_0001_001_11110001 = .ok (.storeDlm 0xF1) ∧
      decodeKey 0b1_0001_010_00000111 = .ok (.storeFcr 0x07) ∧ decodeKey 0b0_0001_011_10000011 = .ok (.storeLcr 0x83) ∧
      decodeKey 0b0_0001_100_00011111 = .ok (.storeMcr 0x1F) ∧ decodeKey 0b0_0001_101_00000000 = .ok (.storeLsr 0x00) ∧
      decodeKey 0b0_0001_110_00000000 = .ok (.storeMsr 0x00) ∧
      decodeKey 0b0_0001_111_01011010 = .ok (.storeScr 0x5A) := by decide

/-- The other kinds, with ignored bits set where they have them (95_test_vectors.md section 2). -/
theorem test_decode_calls :
    decodeKey 0b0_0010_111_11111111 = .ok .service ∧ decodeKey 0b0_0011_000_01000001 = .ok (.hostRx 0x41) ∧
      decodeKey 0b0_0100_000_00000000 = .ok .hostTxPop ∧ decodeKey 0b1_0101_000_00000000 = .ok .suspend ∧
      decodeKey 0b0_0110_000_00000000 = .ok .resume ∧ decodeKey 0b0_0111_000_00000000 = .ok .construct ∧
      decodeKey 0b0_1000_000_00000000 = .ok .stop := by decide

/-- Reserved kinds (95_test_vectors.md section 2). -/
theorem test_decode_refuses_reserved_kinds :
    decodeKey 0x4800 = .reservedKind 0b1001 ∧ decodeKey 0x7FFF = .reservedKind 0b1111 ∧
      decodeTableWord 16 0x4800 = none ∧ decodeTableWord 15 0x1000 = none := by decide

/-- The words of 30_encoding.md R97. -/
theorem test_encode_words :
    encode .service = 0x1000 ∧ encode (.hostRx 0x41) = 0x1841 ∧ encode .hostTxPop = 0x2000 ∧ encode .suspend = 0x2800 ∧
      encode .resume = 0x3000 ∧ encode .construct = 0x3800 ∧ encode .stop = 0x4000 ∧ encode (.storeLcr 0x83) = 0x0B83 ∧
      encode .loadLsr = 0x0500 := by decide

/-! ## Loads (95_test_vectors.md section 3.1) -/

/-- L1. -/
theorem test_loadRbr_pops :
    after .loadRbr { device with rx := [0x41, 0x42] } (fun t => (t.returned, t.rx, t.read .rbr)) =
      some (some 0x41, [0x42], 0x41) := by decide

/-- L2. -/
theorem test_loadRbr_stale :
    after .loadRbr (device.write .rbr 0x41) (fun t => (t.returned, t.rx)) = some (some 0x41, []) := by decide

/-- L5. -/
theorem test_loadDll :
    after .loadDll { device.write .dll 0x01 with rx := [0x41] } (fun t => (t.returned, t.rx)) =
      some (some 0x01, [0x41]) := by decide

/-- L6; W9 rejects the IIR value 0x02 here. -/
theorem test_loadIer : after .loadIer (device.write .ier 0x0F) State.returned = some (some 0x0F) := by decide

/-- L7. -/
theorem test_loadDlm :
    after .loadDlm ((device.write .dlm 0xFF).write .ier 0x01) State.returned = some (some 0xFF) := by decide

/-- L8. -/
theorem test_loadIir_empty : after .loadIir device State.returned = some (some 0x02) := by decide

/-- L9. -/
theorem test_loadIir_input : after .loadIir { device with rx := [0x00] } State.returned = some (some 0x04) := by decide

/-- A different audited value replaces a code (00_scope.md R5). -/
theorem test_loadIir_replaced_code :
    after .loadIir { device with cfg := { device.cfg with codes := { Codes.decided with iirTxReady := 0xC2 } } }
      State.returned = some (some 0xC2) := by decide

/-- L11. -/
theorem test_loadLcr : after .loadLcr (device.write .lcr 0xFF) State.returned = some (some 0xFF) := by decide

/-- L12. -/
theorem test_loadMcr : after .loadMcr (device.write .mcr 0x10) State.returned = some (some 0x10) := by decide

/-- L13. -/
theorem test_loadLsr_tx : after .loadLsr { device with tx := [0x48] } State.returned = some (some 0x20) := by decide

/-- L14. -/
theorem test_loadLsr_input : after .loadLsr { device with rx := [0x0A] } State.returned = some (some 0x21) := by decide

/-- L16. -/
theorem test_loadMsr : after .loadMsr (device.write .mcr 0x10) State.returned = some (some 0xA0) := by decide

/-- L17. -/
theorem test_loadScr : after .loadScr (device.write .scr 0xFF) State.returned = some (some 0xFF) := by decide

/-- L18. -/
theorem test_loadScr_trace :
    after .loadScr (traced.write .scr 0x11) (fun t => (t.returned, t.events)) =
      some (some 0x11, [.trace .load 7 0x11]) := by decide

/-! ## Stores (95_test_vectors.md section 3.2) -/

/-- S2. -/
theorem test_storeThr :
    after (.storeThr 0x41) { device with tx := [0x41] } (fun t => (t.read .thr, t.tx)) = some (0x41, [0x41, 0x41]) := by
  decide

/-- S3. -/
theorem test_storeDll :
    after (.storeDll 0x55) (device.write .thr 0x41) (fun t => (t.read .dll, t.read .thr, t.tx)) =
      some (0x55, 0x41, []) := by decide

/-- S4. -/
theorem test_storeIer : after (.storeIer 0xF1) device (State.read .ier) = some 0x01 := by decide

/-- S15. -/
theorem test_storeIer_trace :
    after (.storeIer 0xF1) traced (fun t => (t.read .ier, t.events)) = some (0x01, [.trace .store 1 0xF1]) := by decide

/-- S6. -/
theorem test_storeDlm :
    after (.storeDlm 0xF1) (device.write .ier 0x01) (fun t => (t.read .dlm, t.read .ier)) = some (0xF1, 0x01) := by decide

/-- S7. -/
theorem test_storeFcr :
    after (.storeFcr 0x07) { device with rx := [0x41], tx := [0x42] } (fun t => (t.rx, t.tx, t.regs)) =
      some ([0x41], [0x42], device.regs) := by decide

/-- S10. -/
theorem test_storeLcr :
    after (.storeLcr 0x7F) (device.write .lcr 0x80) (fun t => (t.read .lcr, t.dlab)) = some (0x7F, false) := by decide

/-- S11. -/
theorem test_storeMcr : after (.storeMcr 0xFF) device (State.read .mcr) = some 0xFF := by decide

/-- S12. -/
theorem test_storeLsr : after (.storeLsr 0xFF) device (fun t => (t.lsr, t.regs)) = some (0x20, device.regs) := by decide

/-- S13. -/
theorem test_storeMsr : after (.storeMsr 0x00) device State.regs = some device.regs := by decide

/-- S14. -/
theorem test_storeScr : after (.storeScr 0x00) (device.write .scr 0xFF) (State.read .scr) = some 0x00 := by decide

/-! ## SERVICE (95_test_vectors.md section 3.3) -/

/-- V8. -/
theorem test_service_signals :
    after .service { device.write .ier 0x01 with rx := [0x41], suspended := true } State.events =
      some [.irqSignal 10] := by decide

/-- V5. -/
theorem test_service_ignores_bits_1_to_3 :
    after .service { device.write .ier 0x0E with rx := [0x41] } State.events = some [] := by decide

/-! ## The host port and reset (95_test_vectors.md section 3.4) -/

/-- H1 and H2. -/
theorem test_hostRx :
    after (.hostRx 0x41) device State.rx = some [0x41] ∧
      after (.hostRx 0x41) { device with suspended := true } State.rx = some [] := by decide

/-- H3 and H4. -/
theorem test_hostRx_full :
    refusal? (exec (.hostRx 0x03) full) = some .rxFull ∧
      after (.hostRx 0x03) { full with suspended := true } State.rx = some [0x01, 0x02] := by decide

/-- H5 and H6. -/
theorem test_hostTxPop :
    after .hostTxPop { device with tx := [0x48, 0x69] } (fun t => (t.tx, t.events)) = some ([0x69], [.hostOut 0x48]) ∧
      after .hostTxPop { device with tx := [0x48, 0x69], draw := { device.draw with ok := false } }
        (fun t => (t.tx, t.events)) = some ([0x69], []) := by decide

/-- H7. -/
theorem test_hostTxPop_empty : refusal? (exec .hostTxPop device) = some .txEmpty := by decide

/-- H8. -/
theorem test_suspend : after .suspend device State.suspended = some true := by decide

/-- H9. -/
theorem test_resume : after .resume { device with suspended := true } State.suspended = some false := by decide

/-- H10 with k = 1. -/
theorem test_stop :
    after .stop { device with tx := [0x01, 0x02], rx := [0x05] } (fun t => (t.events, t.tx, t.rx, t.life)) =
      some ([.hostOut 0x01], [], [], .stopped) := by decide

/-- H11. -/
theorem test_stopped_refuses :
    refusal? (exec .loadRbr { device with life := .stopped }) = some .deviceStopped ∧
      refusal? (exec .stop { device with life := .stopped }) = some .deviceStopped := by decide

/-- H12; the operand becomes the configuration (70_reset_and_hazards.md R190). -/
theorem test_construct :
    after .construct { device.write .ier 0x0F with life := .stopped } (fun t => (t.life, t.cfg.irqLine, t.regs)) =
      some (.running, 11,
        { rbr := 0x51, thr := 0x52, ier := 0x00, lcr := 0x00, mcr := 0x00, scr := 0x53, dll := 0x54, dlm := 0x55 }) := by
  decide

/-- Y2. -/
theorem test_construct_fatal :
    after .construct { device with life := .unconstructed, draw := { device.draw with fatal := true } }
        (fun t => (t.events, t.life)) = some ([.abort .startup], .aborted) ∧
      fault? (exec .construct { device with life := .aborted }) = some .deviceAborted := by decide

/-- RX_DEPTH = 0 is no configuration (00_scope.md R5). -/
theorem test_construct_illegal :
    refusal? (exec .construct
      { device with
        life := .stopped
        draw := { device.draw with config := { device.cfg with rxDepth := some 0 } } }) =
      some .illegalConfiguration := by decide

/-- H13. -/
theorem test_readOne_sentinel : device.readOne = (0, device) := by decide

/-! ## Steps -/

/-- W2: a byte stored at offset 0 reaches DLL while DLAB is set (key 0x8812). -/
theorem test_step_samples_dlab :
    ((next? (step ((device.write .lcr 0x80).setSchedule [.request 0x0812 device.draw]))).map
      fun t => (t.read .dll, t.tx)) = some (0x12, []) := by decide

/-- A table word with D = 1 runs the banked operation. -/
theorem test_withFetchWord :
    ((next? (step (device.withFetchWord 16 0x89F1))).map fun t => (t.read .dlm, t.read .lcr)) = some (0xF1, 0x80) := by
  decide

/-- A table word runs as the first step after reset, though the registers of that state are free. -/
theorem test_withFetchWord_reset :
    ((next? (step (State.reset.withFetchWord 16 0x0500))).bind State.returned) = some 0x20 := by rfl

/-- 20_memory.md R51 and R52: the last address of the window is offset 7, the next is outside. -/
theorem test_bus_edges :
    ((next? (step ((device.write .scr 0x5A).setSchedule [.bus (.read 0x1007 1)]))).bind State.returned) = some 0x5A ∧
      refusal? (step (device.setSchedule [.bus (.read 0x1008 1)])) = some (.outsideWindow 0x1008) := by decide

/-- 60_exceptions.md R172: the bridge's fault step. -/
theorem test_bridge_fault :
    ((next? (step (device.setSchedule [.bridgeFault]))).map fun t => (t.events, t.life)) =
      some ([.abort .wait], .aborted) := by decide

/-- With no input there is no step. -/
theorem test_no_input : refusal? (step device) = some .noInput := by decide

/-! ## Witnesses: the hypotheses of each statement, met together -/

theorem witness_DecodeOfEncodeIsIdentity :
    Instr.wf false (.storeThr 0xFF) = true ∧ Instr.wf true .loadDlm = true ∧ Instr.wf true .service = true := by decide

theorem witness_DecodedKeyFitsExactlyItsTableRow :
    (Instr.storeFcr 0xFF).pattern.fits 0x8AFF = true ∧ (0x8AFF : DecodeKey).request.data = 0xFF := by decide

theorem witness_EncodeZeroesTheIgnoredBits : decode 0x17FF true = .ok .service := by decide

theorem witness_ReservedKindsAreRefused :
    refusal? (step (device.setSchedule [.request 0x4800 device.draw])) = some (.reservedKind 0b1001) ∧
      9 ≤ (0x4800 : RequestWord).kind.toNat ∧ 9 ≤ (0x7FFF : RequestWord).kind.toNat ∧
      ¬ 9 ≤ (0x47FF : RequestWord).kind.toNat ∧
      (device.setSchedule [.request 0x4800 device.draw]).schedule = .request 0x4800 device.draw :: [] := by decide

theorem witness_StepRunsTheDecodedOperation :
    (device.setSchedule [.request 0x0841 device.draw]).schedule = .request 0x0841 device.draw :: [] ∧
      decode 0x0841 (device.setSchedule [.request 0x0841 device.draw]).dlab = .ok (.storeThr 0x41) := by decide

theorem witness_BusAccessArrivesAsLoadOrStore :
    (device.setSchedule [.bus (.read 0x1000 1)]).schedule =
        .bus (.read (device.cfg.uartBase + (0 : Offset).toNat) 1) :: [] ∧
      (device.setSchedule [.bus (.write 0x1007 [0xFF])]).schedule =
        .bus (.write (device.cfg.uartBase + (7 : Offset).toNat) [0xFF]) :: [] := by decide

theorem witness_AccessesThatNeverReachTheBlockAreRefused :
    ((device.setSchedule [.bus (.read 0x1000 0)]).schedule = .bus (.read 0x1000 0) :: [] ∧ (0 : Nat) ≠ 1) ∧
      ((device.setSchedule [.bus (.write 0x1000 [1, 2])]).schedule = .bus (.write 0x1000 [1, 2]) :: [] ∧
        [(1 : Byte), 2].length ≠ 1) ∧
      ((device.setSchedule [.bus (.read 0xFFF 1)]).schedule = .bus (.read 0xFFF 1) :: [] ∧
        0xFFF < device.cfg.uartBase) ∧
      ((device.setSchedule [.bus (.write 0x1008 [1])]).schedule = .bus (.write 0x1008 [1]) :: [] ∧
        [(1 : Byte)].length = 1 ∧ device.cfg.uartBase + 8 ≤ 0x1008) := by decide

theorem witness_LoadRbrPopsTheOldestByte :
    (0x00FF : DecodeKey) &&& 0xFF00 = 0x0000 ∧ device.life = .running ∧ device.rx = [] ∧
      { device with rx := [0x00] }.life = .running ∧ { device with rx := [0x00] }.rx = 0x00 :: [] := by decide

theorem witness_LoadOfAStoredRegisterReturnsIt :
    (0x80FF : DecodeKey) &&& 0xFF00 = 0x8000 ∧ (0x8700 : DecodeKey) &&& 0x7F00 = 0x0700 ∧ device.life = .running := by
  decide

theorem witness_LoadIerReturnsTheStoredEnables :
    (0x01FF : DecodeKey) &&& 0xFF00 = 0x0100 ∧ device.life = .running ∧ device.Inv :=
  ⟨by decide, by decide, by decide, by decide, by simp [device]⟩

theorem witness_LoadIirReportsTheReceiveFifo :
    (0x82FF : DecodeKey) &&& 0x7F00 = 0x0200 ∧ device.life = .running := by decide

theorem witness_LoadLsrReportsThrEmptyAndInput :
    (0x85FF : DecodeKey) &&& 0x7F00 = 0x0500 ∧ device.life = .running := by decide

theorem witness_LoadMsrReportsAConstant :
    (0x86FF : DecodeKey) &&& 0x7F00 = 0x0600 ∧ device.life = .running := by decide

theorem witness_DecidedStatusCodes :
    device.cfg.codes = .decided ∧ device.rx = [] ∧ full.cfg.codes = .decided ∧ full.rx ≠ [] := by decide

theorem witness_StoreThrQueuesTheByte : (0x08FF : DecodeKey) &&& 0xFF00 = 0x0800 ∧ device.life = .running := by decide

theorem witness_StoreOfARawRegisterStoresTheByte :
    (0x88FF : DecodeKey) &&& 0xFF00 = 0x8800 ∧ (0x8BFF : DecodeKey) &&& 0x7F00 = 0x0B00 ∧ device.life = .running ∧
      device.cfg.wf = true := by decide

theorem witness_StoreIerMasksTheByte :
    (0x09FF : DecodeKey) &&& 0xFF00 = 0x0900 ∧ device.life = .running ∧ device.cfg.wf = true ∧
      device.cfg.codes = .decided := by decide

theorem witness_StoreToFcrLsrMsrChangesNothing :
    (0x8AFF : DecodeKey) &&& 0x7F00 = 0x0A00 ∧ device.life = .running := by decide

theorem witness_ServiceSignalsExactlyOnInputWhileEnabled :
    (0x97FF : DecodeKey) &&& 0x7800 = 0x1000 ∧ full.cfg.wf = true ∧ device.cfg.wf = true ∧ (full.write .ier 0x01).life = .running ∧
      ((full.write .ier 0x01).read .ier).getLsbD 0 = true ∧ (full.write .ier 0x01).rx ≠ [] ∧
      device.life = .running ∧ ¬((device.read .ier).getLsbD 0 = true ∧ device.rx ≠ []) := by decide

theorem witness_HostRxAppendsTheByte :
    ({ full with rx := [0x01] } : State).life = .running ∧ ({ full with rx := [0x01] } : State).suspended = false ∧
      ∀ depth, ({ full with rx := [0x01] } : State).cfg.rxDepth = some depth →
        ({ full with rx := [0x01] } : State).rx.length < depth :=
  ⟨by decide, by decide, by rintro depth ⟨⟩; decide⟩

theorem witness_HostRxIntoAFullFifoHasNoStep :
    full.life = .running ∧ full.suspended = false ∧ full.cfg.rxDepth = some 2 ∧ 2 ≤ full.rx.length := by decide

theorem witness_HostRxWhileSuspendedDiscards :
    ({ full with suspended := true } : State).life = .running ∧ ({ full with suspended := true } : State).suspended = true := by
  decide

theorem witness_HostTxPopRelaysTheOldestByte :
    (0xA7FF : DecodeKey) &&& 0x7800 = 0x2000 ∧ device.life = .running ∧ device.tx = [] ∧
      ({ device with tx := [0x48] } : State).life = .running ∧ ({ device with tx := [0x48] } : State).tx = 0x48 :: [] := by
  decide

theorem witness_SuspendSetsTheFlag : (0xAFFF : DecodeKey) &&& 0x7800 = 0x2800 ∧ device.life = .running := by decide

theorem witness_ResumeClearsTheFlag : (0xB7FF : DecodeKey) &&& 0x7800 = 0x3000 ∧ device.life = .running := by decide

theorem witness_StopRelaysAPrefixAndTearsDown :
    (0xC7FF : DecodeKey) &&& 0x7800 = 0x4000 ∧ ({ device with tx := [0x01] } : State).life = .running ∧
      ({ device with tx := [0x01] } : State).draw.relayed ≤ ({ device with tx := [0x01] } : State).tx.length := by decide

theorem witness_ConstructMakesANewDevice :
    (0xBFFF : DecodeKey) &&& 0x7800 = 0x3800 ∧ ({ device with life := .unconstructed } : State).life = .unconstructed ∧
      ({ device with life := .stopped } : State).life = .stopped ∧ device.draw.config.wf = true ∧
      device.draw.fatal = false := by decide

theorem witness_FatalFailureAborts :
    (({ device with life := .stopped, draw := { device.draw with fatal := true } } : State).life = .stopped ∧
      ({ device with life := .stopped, draw := { device.draw with fatal := true } } : State).draw.fatal = true ∧
      device.draw.config.wf = true) ∧
      (device.setSchedule [.bridgeFault]).life = .running ∧
      (device.setSchedule [.bridgeFault]).schedule = .bridgeFault :: [] := by decide

theorem witness_AbortedIsFinal : ({ device with life := .aborted } : State).life = .aborted := by decide

theorem witness_OnlyConstructRunsOnADeadDevice :
    ({ device with life := .stopped } : State).life = .stopped ∧
      ({ device with life := .unconstructed } : State).life = .unconstructed ∧ Instr.stop ≠ .construct := by decide

theorem witness_WhatCompletesInRunning : device.life = .running := by decide

theorem witness_EveryRegisterAccessCompletes : device.life = .running := by decide

theorem witness_StepKeepsIerMaskedAndRxBounded :
    full.Inv ∧ ∃ t, step (full.setSchedule [.request 0x0000 device.draw]) = .next t :=
  ⟨⟨by decide, by decide, by rintro depth ⟨⟩; decide⟩, _, rfl⟩

theorem witness_StepKeepsStoppedEmpty :
    device.StoppedIsEmpty ∧ ∃ t, step (device.setSchedule [.request 0x4000 device.draw]) = .next t :=
  ⟨fun _ => ⟨rfl, rfl⟩, _, rfl⟩

theorem witness_StepKeepsAbortRecorded :
    device.AbortIsRecorded ∧ ∃ t, step (device.setSchedule [.bridgeFault]) = .next t :=
  ⟨by simp [State.AbortIsRecorded, device], _, rfl⟩

theorem witness_ConfigurationIsFixedForALifetime :
    ∃ t, step ((device.setLife .stopped).setSchedule [.request 0x3800 device.draw]) = .next t ∧ t.cfg ≠ device.cfg :=
  ⟨_, rfl, by decide⟩

theorem witness_HistoryOnlyGrows : ∃ t, step (device.setSchedule [.bridgeFault]) = .next t := ⟨_, rfl⟩

theorem witness_WhoTouchesTheReceiveFifo :
    (∃ t, exec (.hostRx 0x41) device = .next t ∧ t.rx ≠ device.rx) ∧
      (∃ t, exec .loadRbr full = .next t ∧ t.rx ≠ full.rx) ∧ ∃ t, exec .stop full = .next t ∧ t.rx ≠ full.rx :=
  ⟨⟨_, rfl, by decide⟩, ⟨_, rfl, by decide⟩, _, rfl, by decide⟩

theorem witness_WhoTouchesTheTransmitFifo :
    (∃ t, exec (.storeThr 0x41) device = .next t ∧ t.tx ≠ device.tx) ∧
      ∃ t, exec .hostTxPop { device with tx := [0x41] } = .next t ∧ t.tx ≠ [0x41] :=
  ⟨⟨_, rfl, by decide⟩, _, rfl, by decide⟩

/-- Two inputs on a full device: SUSPEND, then a LOAD of LSR. -/
def arrival : State := full.setSchedule [.request 0x2800 device.draw, .request 0x0500 device.draw]

theorem witness_InputStaysUntilAnRbrLoad :
    ∃ t, run 2 arrival = .next t ∧ arrival.rx ≠ [] ∧
      Throughout (fun i _ => i ≠ .loadRbr ∧ i ≠ .stop ∧ i ≠ .construct) 2 arrival := by
  refine ⟨_, rfl, by decide, fun i t h => ?_, fun i t h => ?_, trivial⟩ <;>
  · cases h
    decide

theorem witness_OnlyServiceSignals :
    full.cfg.wf = true ∧ ∃ t, step ((full.write .ier 0x01).setSchedule [.request 0x1000 device.draw]) = .next t ∧
      t.events = [] ++ [.irqSignal 10] ∧ Event.irqSignal 10 ∈ [Event.irqSignal 10] := ⟨by decide, _, rfl, rfl, by decide⟩

theorem witness_OnlyTheRbrLoadHasASideEffect :
    (∃ t, exec ((Request.load 0).select true) device = .next t) ∧ (Request.load 0).select true ≠ .loadRbr :=
  ⟨⟨_, rfl⟩, by decide⟩

theorem witness_RepeatedStoresAreIdempotentButThr :
    (∃ t, exec ((Request.store 0 0x41).select false) device = .next t) ∧
      ∃ t, exec ((Request.store 7 0x41).select false) device = .next t := ⟨⟨_, rfl⟩, _, rfl⟩

theorem witness_LcrStoreBanksTheNextAccess :
    device.life = .running ∧ device.cfg.wf = true ∧
      [Input.request (Request.load 1).word device.draw] = .request (Request.load 1).word device.draw :: [] := by decide

theorem witness_SetdivWritesTheDivisor :
    (device.setSchedule ((pseudoSetdiv 0x03 0x00 0x01).map fun r => .request r.word device.draw)).life = .running ∧
      device.cfg.wf = true := by
  decide

/-- One input: a LOAD of LSR. -/
def polling (s : State) : State := s.setSchedule [.request 0x0500 device.draw]

theorem witness_TraceIsObservabilityOnly :
    EqualButTrace (polling device) (polling traced) ∧
      ∃ a b, step (polling device) = .next a ∧ step (polling traced) = .next b ∧ a.events ≠ b.events := by
  refine ⟨⟨fun p hp => ?_, rfl, rfl⟩, _, _, rfl, rfl, by decide⟩
  cases p <;> first | rfl | exact absurd (by simp) hp

theorem witness_InertRegistersAreOnlyReadBack :
    Reg.mcr ∈ [Reg.thr, .mcr, .scr, .dll, .dlm] ∧ Frame [.reg .mcr] (polling device) ((polling device).write .mcr 0x1F) ∧
      (∀ (i : Instr) (u : State),
        (i, Reg.mcr) ∈ [(Instr.loadMcr, Reg.mcr), (.loadScr, .scr), (.loadDll, .dll), (.loadDlm, .dlm)] →
          fetch (polling device) ≠ .op i u) ∧
      ∃ a b, step (polling device) = .next a ∧ step ((polling device).write .mcr 0x1F) = .next b ∧
        b.read .mcr ≠ a.read .mcr := by
  refine ⟨by decide, write_frame _ _ _, fun i u listed h => ?_, _, _, rfl, rfl, by decide⟩
  cases h
  exact absurd listed (by decide)

theorem witness_InertBitsAreOnlyReadBack :
    (polling device).cfg.wf = true ∧
      (Frame [.reg .lcr] (polling device) ((polling device).write .lcr 0x7F) ∧
        ((polling device).read .lcr).getLsbD 7 = (((polling device).write .lcr 0x7F).read .lcr).getLsbD 7 ∧
        (∀ u, fetch (polling device) ≠ .op .loadLcr u) ∧
        ∃ a b, step (polling device) = .next a ∧ step ((polling device).write .lcr 0x7F) = .next b ∧
          b.read .lcr ≠ a.read .lcr) ∧
      (Frame [.reg .ier] (polling device) ((polling device).write .ier 0x0E) ∧
        ((polling device).read .ier).getLsbD 0 = (((polling device).write .ier 0x0E).read .ier).getLsbD 0 ∧
        (∀ u, fetch (polling device) ≠ .op .loadIer u) ∧
        ∃ a b, step (polling device) = .next a ∧ step ((polling device).write .ier 0x0E) = .next b ∧
          b.read .ier ≠ a.read .ier) :=
  ⟨by decide,
    ⟨write_frame _ _ _, by decide, fun u h => (by cases h), _, _, rfl, rfl, by decide⟩,
    write_frame _ _ _, by decide, fun u h => (by cases h), _, _, rfl, rfl, by decide⟩

/-- Three inputs: a host byte, a STORE of THR, HOST_TX_POP. -/
def traffic : State :=
  device.setSchedule [.request 0x1841 device.draw, .request 0x0842 device.draw, .request 0x2000 device.draw]

theorem traffic_keepsDevice : Throughout keepsDevice 3 traffic := by
  refine ⟨fun i t h => ?_, fun i t h => ?_, fun i t h => ?_, trivial⟩ <;>
  · cases h
    unfold keepsDevice
    decide

theorem witness_ReceivedBytesComeBackInOrder : ∃ t, run 3 traffic = .next t ∧ Throughout keepsDevice 3 traffic :=
  ⟨_, rfl, traffic_keepsDevice⟩

theorem witness_StoredBytesReachTheHostInOrder :
    ∃ t, run 3 traffic = .next t ∧ Throughout keepsDevice 3 traffic ∧ Throughout hostAccepts 3 traffic := by
  refine ⟨_, rfl, traffic_keepsDevice, fun i t h => ?_, fun i t h => ?_, fun i t h => ?_, trivial⟩ <;>
  · cases h
    unfold hostAccepts
    decide

theorem witness_HostOutputNeverReordersOrDuplicates : ∃ t, run 3 traffic = .next t := ⟨_, rfl⟩

theorem witness_ConstructTakesLegalConfigurationsAlone :
    ({ device with life := .unconstructed } : State).life = .unconstructed ∧
      ({ device with life := .stopped } : State).life = .stopped ∧ device.draw.config.rxDepth ≠ some 0 ∧
      device.draw.config.codes = .decided ∧ ({ device.draw.config with rxDepth := some 0 } : Config).rxDepth = some 0 := by
  decide

end Sys2Proof.Machine.Test
end

section
/-! SUPPORT. Bus accesses (20_memory.md): the request a one-byte access in the window arrives as, and the step that runs
it. -/

namespace Sys2Proof.Machine

@[simp] theorem State.setSchedule_dlab (l : List Input) (s : State) : (s.setSchedule l).dlab = s.dlab := rfl

theorem busRequest_read_offset (c : Config) (off : Offset) :
    busRequest c (.read (c.uartBase + off.toNat) 1) = .ok (.load off) := by
  simp [busRequest, windowOffset_of_offset]

theorem busRequest_write_offset (c : Config) (off : Offset) (v : Byte) :
    busRequest c (.write (c.uartBase + off.toNat) [v]) = .ok (.store off v) := by
  simp [busRequest, windowOffset_of_offset]

/-- The word of a request runs as the operation the request is under the DLAB of the state it runs from. -/
theorem fetchWord_word (r : Request) (s : State) : fetchWord r.word s = .op (r.select s.dlab) s := by
  simp [fetchWord]

/-- A bus access that reaches the block runs the operation its request is under the DLAB value before the step
(20_memory.md R51, 30_encoding.md R92). -/
theorem step_bus {s : State} {a : BusAccess} {rest : List Input} {r : Request} (h : s.schedule = .bus a :: rest)
    (hr : busRequest s.cfg a = .ok r) : step s = exec (r.select s.dlab) (s.setSchedule rest) := by
  have hf : fetch s = .op (r.select s.dlab) (s.setSchedule rest) := by
    rw [fetch_bus h hr, fetchWord_word, State.setSchedule_dlab]
  rw [step, hf]

/-- Settles O8: the bus request of an access at `UART_BASE + off` is the LOAD or STORE of that offset, and the step runs
that request. -/
theorem busAccessArrivesAsLoadOrStore : Obligations.BusAccessArrivesAsLoadOrStore := by
  unfold Obligations.BusAccessArrivesAsLoadOrStore
  intro s off v rest
  constructor
  · intro read
    exact step_bus read (busRequest_read_offset s.cfg off)
  · intro write
    exact step_bus write (busRequest_write_offset s.cfg off v)

end Sys2Proof.Machine
end

section
/-! SUPPORT. The register decode table (30_encoding.md R71): DLAB banks offsets 0 and 1 alone. -/

namespace Sys2Proof

/-- The banked offsets, 0 and 1, lie below 2. -/
theorem Offset.ne_zero_and_ne_one_of_two_le {off : Offset} (unbanked : 2 ≤ off) : off ≠ 0 ∧ off ≠ 1 := by
  constructor <;>
  · rintro rfl
    exact absurd unbanked (by decide)

/-- From offset 2 on, a LOAD reaches the unbanked column under either DLAB value (30_encoding.md R71). -/
theorem Request.select_load_of_two_le {off : Offset} (unbanked : 2 ≤ off) (d : Bool) :
    (Request.load off).select d = loadAt off := by
  obtain ⟨ne_zero, ne_one⟩ := Offset.ne_zero_and_ne_one_of_two_le unbanked
  rw [Request.select, selectLoad, if_neg (ne_zero ·.2), if_neg (ne_one ·.2)]

/-- From offset 2 on, a STORE reaches the unbanked column under either DLAB value (30_encoding.md R71). -/
theorem Request.select_store_of_two_le {off : Offset} (unbanked : 2 ≤ off) (d : Bool) (v : Byte) :
    (Request.store off v).select d = storeAt off v := by
  obtain ⟨ne_zero, ne_one⟩ := Offset.ne_zero_and_ne_one_of_two_le unbanked
  rw [Request.select, selectStore, if_neg (ne_zero ·.2), if_neg (ne_one ·.2)]

/-- Settles O6: the rows of the banked offsets 0 and 1 compute at each DLAB value, and every other row is the unbanked
column. -/
theorem registerDecodeTable : Obligations.RegisterDecodeTable := by
  unfold Obligations.RegisterDecodeTable
  intro d v
  have load (off : Offset) (unbanked : 2 ≤ off) := Request.select_load_of_two_le unbanked d
  have store (off : Offset) (unbanked : 2 ≤ off) := Request.select_store_of_two_le unbanked d v
  refine ⟨rfl, rfl, rfl, rfl, rfl, rfl, rfl, rfl, ?_⟩
  exact ⟨load 2 (by decide), store 2 (by decide), load 3 (by decide), store 3 (by decide),
    load 4 (by decide), store 4 (by decide), load 5 (by decide), store 5 (by decide),
    load 6 (by decide), store 6 (by decide), load 7 (by decide), store 7 (by decide)⟩

end Sys2Proof
end

section
/-! SUPPORT. The LOAD rows of the decode table (30_encoding.md R90 to R92): a LOAD's high byte decides its register. -/

namespace Sys2Proof

/-- A key of kind 0 is a LOAD at its offset, under its DLAB value. -/
theorem decodeKey_of_kind_zero {k : DecodeKey} (kind : k.request.kind = 0) :
    decodeKey k = .ok (selectLoad k.dlab k.request.off) := by
  have parsed : parseRequest k.request = some (.load k.request.off) := by simp [parseRequest, kind]
  simp [decodeKey, decode, parsed, Request.select]

/-- A key decodes to a LOAD when every high byte that fits the row of match `b` and mask `m` has kind 0 and selects it. -/
theorem decodeKey_of_load_row (m b : Byte) {i : Instr}
    (row : ∀ high : Byte, high &&& m = b →
      high.extractLsb' 3 4 = 0 ∧ selectLoad (high.getLsbD 7) (high.extractLsb' 0 3) = i)
    {k : DecodeKey} (fits : k &&& (m ++ 0#8) = b ++ 0#8) : decodeKey k = .ok i := by
  obtain ⟨kind, selected⟩ := row k.high ((k.masked_iff m b).mp fits)
  rw [decodeKey_of_kind_zero (k.kind_eq.trans kind), k.dlab_eq, k.off_eq, selected]

end Sys2Proof
end

section
/-! SUPPORT. What a LOAD leaves (40_loads.md R100 to R103, R105, R106, R109): the byte it returns, its Trace record, and
everything else unchanged. -/

namespace Sys2Proof.Machine

/-- Ending an operation changes the history and the returned byte alone. -/
theorem emitAll_setReturned_frame (es : List Event) (v : Option Byte) (s : State) :
    Frame [.events, .returned] s ((s.emitAll es).setReturned v) := by
  intro p hp
  cases p with
  | events => simp at hp
  | returned => simp at hp
  | _ => rfl

/-- A LOAD of a stored register returns its byte and traces it, and changes nothing else. -/
theorem loadReg_returns {s : State} (running : s.life = .running) (r : Reg) (off : Offset) :
    ∃ t, loadReg r off s = .next t ∧ t.returned = some (s.read r) ∧
      t.events = s.events ++ traceEvents s.cfg .load off (s.read r) ∧ Frame [.events, .returned] s t :=
  ⟨_, loadReg_running running r off, rfl, rfl, emitAll_setReturned_frame _ _ s⟩

/-- With input buffered, a LOAD of RBR moves the oldest byte to RBR and returns it. -/
theorem exec_loadRbr_cons {s : State} (running : s.life = .running) {b : Byte} {rest : List Byte}
    (input : s.rx = b :: rest) :
    ∃ t, exec .loadRbr s = .next t ∧ t.returned = some b ∧ t.read .rbr = b ∧ t.rx = rest ∧
      t.events = s.events ++ traceEvents s.cfg .load 0 b ∧ Frame [.reg .rbr, .rx, .events, .returned] s t := by
  have rbr : s.latchRbr.read .rbr = b := by simp [input]
  have events : s.latchRbr.events = s.events := latchRbr_frame s .events (by simp)
  have latched : Frame [.reg .rbr, .rx, .events, .returned] s s.latchRbr := (latchRbr_frame s).mono (by simp)
  refine ⟨_, exec_loadRbr_running running, ?_, ?_, ?_, ?_, latched.trans ?_⟩
  · simp [rbr]
  · simp [rbr]
  · simp [input]
  · simp [rbr, events]
  · exact (emitAll_setReturned_frame _ _ s.latchRbr).mono (by simp)

/-- With no input, a LOAD of RBR returns the last received byte, which stays in RBR. -/
theorem exec_loadRbr_empty {s : State} (running : s.life = .running) (empty : s.rx = []) :
    ∃ t, exec .loadRbr s = .next t ∧ t.returned = some (s.read .rbr) ∧
      t.events = s.events ++ traceEvents s.cfg .load 0 (s.read .rbr) ∧ Frame [.events, .returned] s t := by
  have next := exec_loadRbr_running running
  rw [latchRbr_empty empty] at next
  exact ⟨_, next, rfl, rfl, emitAll_setReturned_frame _ _ s⟩

/-- Settles O10: a LOAD of RBR with input, and one without. -/
theorem loadRbrPopsTheOldestByte : Obligations.LoadRbrPopsTheOldestByte := by
  unfold Obligations.LoadRbrPopsTheOldestByte
  refine ⟨fun _ => decodeKey_of_load_row 0xFF 0x00 (by decide), fun s running => ⟨?_, ?_⟩⟩
  · intro b rest input
    exact exec_loadRbr_cons running input
  · intro empty
    exact exec_loadRbr_empty running empty

/-- Settles O11: each of the five rows decodes by its high byte, and each operation is the LOAD of its stored register. -/
theorem loadOfAStoredRegisterReturnsIt : Obligations.LoadOfAStoredRegisterReturnsIt := by
  unfold Obligations.LoadOfAStoredRegisterReturnsIt
  intro i r off p row
  simp only [List.mem_cons, List.not_mem_nil, or_false, Prod.mk.injEq] at row
  obtain ⟨rfl, rfl, rfl, rfl⟩ | ⟨rfl, rfl, rfl, rfl⟩ | ⟨rfl, rfl, rfl, rfl⟩ | ⟨rfl, rfl, rfl, rfl⟩ |
    ⟨rfl, rfl, rfl, rfl⟩ := row
  · exact ⟨fun _ => decodeKey_of_load_row 0xFF 0x80 (by decide),
      fun s running => loadReg_returns running .dll 0⟩
  · exact ⟨fun _ => decodeKey_of_load_row 0xFF 0x81 (by decide),
      fun s running => loadReg_returns running .dlm 1⟩
  · exact ⟨fun _ => decodeKey_of_load_row 0x7F 0x03 (by decide),
      fun s running => loadReg_returns running .lcr 3⟩
  · exact ⟨fun _ => decodeKey_of_load_row 0x7F 0x04 (by decide),
      fun s running => loadReg_returns running .mcr 4⟩
  · exact ⟨fun _ => decodeKey_of_load_row 0x7F 0x07 (by decide),
      fun s running => loadReg_returns running .scr 7⟩

/-- Settles O12: the byte is the stored IER, whose bits 7:4 are the invariant's second clause. -/
theorem loadIerReturnsTheStoredEnables : Obligations.LoadIerReturnsTheStoredEnables := by
  unfold Obligations.LoadIerReturnsTheStoredEnables
  refine ⟨fun _ => decodeKey_of_load_row 0xFF 0x01 (by decide), fun s running => ?_⟩
  obtain ⟨t, next, returned, events, frame⟩ := loadReg_returns running .ier 1
  have reserved : s.Inv → s.read .ier &&& 0xF0 = 0 := fun ⟨_, ier, _⟩ => ier
  exact ⟨t, s.read .ier, next, returned, rfl, reserved, events, frame⟩

end Sys2Proof.Machine
end

section
/-! SUPPORT. The STORE rows of the decode table (30_encoding.md R90 to R92): a STORE's high byte decides its
register, and its low byte is the operand. -/

namespace Sys2Proof

/-- A key of kind 1 is a STORE of its data byte at its offset, under its DLAB value. -/
theorem decodeKey_of_kind_one {k : DecodeKey} (kind : k.request.kind = 1) :
    decodeKey k = .ok (selectStore k.dlab k.request.off k.request.data) := by
  have parsed : parseRequest k.request = some (.store k.request.off k.request.data) := by simp [parseRequest, kind]
  simp [decodeKey, decode, parsed, Request.select]

/-- A key decodes to the STORE of its data byte at `off` when every high byte that fits the row of match `b` and mask
`m` has kind 1 and that offset, and either the row fixes DLAB to `d` or the offset is not banked. -/
theorem decodeKey_of_store_row (m b : Byte) (d : Bool) (off : Offset)
    (row : ∀ high : Byte, high &&& m = b →
      high.extractLsb' 3 4 = 1 ∧ high.extractLsb' 0 3 = off ∧ (high.getLsbD 7 = d ∨ 2 ≤ off))
    {k : DecodeKey} (fits : k &&& (m ++ 0#8) = b ++ 0#8) :
    decodeKey k = .ok ((Request.store off k.request.data).select d) := by
  obtain ⟨kind, at_off, dlab | unbanked⟩ := row k.high ((k.masked_iff m b).mp fits)
  all_goals rw [decodeKey_of_kind_one (k.kind_eq.trans kind), k.off_eq, at_off, ← Request.select]
  · rw [k.dlab_eq, dlab]
  · rw [Request.select_store_of_two_le unbanked, Request.select_store_of_two_le unbanked]

end Sys2Proof
end

section
/-! SUPPORT. What the derived values read: an update that leaves those parts leaves the value. -/

namespace Sys2Proof.Machine

/-- DLAB reads LCR and the codes alone (10_state.md R23). -/
theorem Frame.dlab_eq {w : List Part} {s t : State} (frame : Frame w s t) (lcr : .reg .lcr ∉ w) (cfg : .cfg ∉ w) :
    t.dlab = s.dlab := by
  have same_lcr : t.read .lcr = s.read .lcr := frame (.reg .lcr) lcr
  have same_cfg : t.cfg = s.cfg := frame .cfg cfg
  rw [State.dlab, State.dlab, same_lcr, same_cfg]

/-- has_input reads the receive FIFO alone (00_scope.md R8). -/
theorem Frame.hasInput_eq {w : List Part} {s t : State} (frame : Frame w s t) (rx : .rx ∉ w) :
    t.hasInput = s.hasInput := by
  have same_rx : t.rx = s.rx := frame .rx rx
  rw [State.hasInput, State.hasInput, same_rx]

/-- IIR reads has_input and the codes alone (10_state.md R25). -/
theorem Frame.iir_eq {w : List Part} {s t : State} (frame : Frame w s t) (rx : .rx ∉ w) (cfg : .cfg ∉ w) :
    t.iir = s.iir := by
  have same_cfg : t.cfg = s.cfg := frame .cfg cfg
  rw [State.iir, State.iir, frame.hasInput_eq rx, same_cfg]

/-- LSR reads has_input and the codes alone (10_state.md R28). -/
theorem Frame.lsr_eq {w : List Part} {s t : State} (frame : Frame w s t) (rx : .rx ∉ w) (cfg : .cfg ∉ w) :
    t.lsr = s.lsr := by
  have same_cfg : t.cfg = s.cfg := frame .cfg cfg
  rw [State.lsr, State.lsr, frame.hasInput_eq rx, same_cfg]

end Sys2Proof.Machine
end

section
/-! SUPPORT. What a STORE leaves (41_stores.md R120 to R129): the byte it stores or queues, its Trace record, and
everything else unchanged. -/

namespace Sys2Proof.Machine

/-- Replacing the transmit FIFO changes that FIFO alone. -/
theorem setTx_frame (q : List Byte) (s : State) : Frame [.tx] s (s.setTx q) := by
  intro p hp
  cases p with
  | tx => simp at hp
  | _ => rfl

/-- A STORE of one register leaves `stored` in it, traces the byte as written, and changes nothing else. -/
theorem storeReg_stores {s : State} (running : s.life = .running) (r : Reg) (off : Offset) (stored v : Byte) :
    ∃ t, storeReg r off stored v s = .next t ∧ t.read r = stored ∧ t.returned = none ∧
      t.events = s.events ++ traceEvents s.cfg .store off v ∧ Frame [.reg r, .events, .returned] s t := by
  have written : Frame [.reg r, .events, .returned] s (s.write r stored) := (write_frame r stored s).mono (by simp)
  have ended := emitAll_setReturned_frame (traceEvents s.cfg .store off v) none (s.write r stored)
  exact ⟨_, storeReg_running running r off stored v, by simp, rfl, rfl, written.trans (ended.mono (by simp))⟩

/-- DLAB after one register was replaced by `v`: bit 7 of `v` when that register is LCR, else as before. -/
theorem dlab_after_store {s t : State} {r : Reg} {v : Byte} (legal : s.cfg.wf = true) (stored : t.read r = v)
    (frame : Frame [.reg r, .events, .returned] s t) : t.dlab = if r = .lcr then v.getLsbD 7 else s.dlab := by
  split
  case isTrue is_lcr =>
    have same_cfg : t.cfg = s.cfg := frame .cfg (by simp)
    rw [dlab_eq_bit7 (same_cfg ▸ legal), ← is_lcr, stored]
  case isFalse not_lcr => exact frame.dlab_eq (by simpa using Ne.symm not_lcr) (by simp)

/-- A STORE of a register without a mask stores the byte raw; of the derived values it moves DLAB alone, through LCR. -/
theorem storeReg_stores_raw {s : State} (running : s.life = .running) (r : Reg) (off : Offset) (v : Byte) :
    ∃ t, storeReg r off v v s = .next t ∧ t.read r = v ∧ t.returned = none ∧
      (s.cfg.wf = true → t.dlab = (if r = .lcr then v.getLsbD 7 else s.dlab)) ∧
      t.events = s.events ++ traceEvents s.cfg .store off v ∧ Frame [.reg r, .events, .returned] s t := by
  obtain ⟨t, next, stored, returned, events, frame⟩ := storeReg_stores running r off v v
  exact ⟨t, next, stored, returned, fun legal => dlab_after_store legal stored frame, events, frame⟩

/-- A discarded STORE traces the byte as written and changes nothing else; IIR and LSR read as before. -/
theorem storeDiscarded_changes_nothing {s : State} (running : s.life = .running) (off : Offset) (v : Byte) :
    ∃ t, storeDiscarded off v s = .next t ∧ t.returned = none ∧ t.iir = s.iir ∧ t.lsr = s.lsr ∧
      t.events = s.events ++ traceEvents s.cfg .store off v ∧ Frame [.events, .returned] s t := by
  have frame := emitAll_setReturned_frame (traceEvents s.cfg .store off v) none s
  exact ⟨_, storeDiscarded_running running off v, rfl, frame.iir_eq (by simp) (by simp),
    frame.lsr_eq (by simp) (by simp), rfl, frame⟩

/-- A STORE of THR writes THR and the tail of the transmit FIFO, then ends as every STORE does. -/
theorem exec_storeThr_frame (s : State) (v : Byte) :
    Frame [.reg .thr, .tx, .events, .returned] s
      ((((s.write .thr v).setTx (s.tx ++ [v])).emitAll (traceEvents s.cfg .store 0 v)).setReturned none) := by
  have written : Frame [.reg .thr, .tx, .events, .returned] s (s.write .thr v) :=
    (write_frame .thr v s).mono (by simp)
  have queued := setTx_frame (s.tx ++ [v]) (s.write .thr v)
  have ended := emitAll_setReturned_frame (traceEvents s.cfg .store 0 v) none ((s.write .thr v).setTx (s.tx ++ [v]))
  exact (written.trans (queued.mono (by simp))).trans (ended.mono (by simp))

/-- Settles O17: the byte lands in THR and at the tail of the transmit FIFO, and LSR reads neither. -/
theorem storeThrQueuesTheByte : Obligations.StoreThrQueuesTheByte := by
  unfold Obligations.StoreThrQueuesTheByte
  refine ⟨fun _ => decodeKey_of_store_row 0xFF 0x08 false 0 (by decide), fun s v running => ?_⟩
  have frame := exec_storeThr_frame s v
  exact ⟨_, exec_storeThr_running running v, by simp, rfl, rfl, frame.lsr_eq (by simp) (by simp), rfl, frame⟩

/-- Settles O18: each of the five rows decodes by its high byte, and each operation is the raw STORE of its register. -/
theorem storeOfARawRegisterStoresTheByte : Obligations.StoreOfARawRegisterStoresTheByte := by
  unfold Obligations.StoreOfARawRegisterStoresTheByte
  intro i r off p row
  simp only [List.mem_cons, List.not_mem_nil, or_false, Prod.mk.injEq] at row
  obtain ⟨rfl, rfl, rfl, rfl⟩ | ⟨rfl, rfl, rfl, rfl⟩ | ⟨rfl, rfl, rfl, rfl⟩ | ⟨rfl, rfl, rfl, rfl⟩ |
    ⟨rfl, rfl, rfl, rfl⟩ := row
  · exact ⟨fun _ => decodeKey_of_store_row 0xFF 0x88 true 0 (by decide),
      fun s v running => storeReg_stores_raw running .dll 0 v⟩
  · exact ⟨fun _ => decodeKey_of_store_row 0xFF 0x89 true 1 (by decide),
      fun s v running => storeReg_stores_raw running .dlm 1 v⟩
  · exact ⟨fun _ => decodeKey_of_store_row 0x7F 0x0B false 3 (by decide),
      fun s v running => storeReg_stores_raw running .lcr 3 v⟩
  · exact ⟨fun _ => decodeKey_of_store_row 0x7F 0x0C false 4 (by decide),
      fun s v running => storeReg_stores_raw running .mcr 4 v⟩
  · exact ⟨fun _ => decodeKey_of_store_row 0x7F 0x0F false 7 (by decide),
      fun s v running => storeReg_stores_raw running .scr 7 v⟩

/-- Settles O20: each of the three rows decodes by its high byte, and each operation is a discarded STORE. -/
theorem storeToFcrLsrMsrChangesNothing : Obligations.StoreToFcrLsrMsrChangesNothing := by
  unfold Obligations.StoreToFcrLsrMsrChangesNothing
  intro i off p row
  simp only [List.mem_cons, List.not_mem_nil, or_false, Prod.mk.injEq] at row
  obtain ⟨rfl, rfl, rfl⟩ | ⟨rfl, rfl, rfl⟩ | ⟨rfl, rfl, rfl⟩ := row
  · exact ⟨fun _ => decodeKey_of_store_row 0x7F 0x0A false 2 (by decide),
      fun s v running => storeDiscarded_changes_nothing running 2 v⟩
  · exact ⟨fun _ => decodeKey_of_store_row 0x7F 0x0D false 5 (by decide),
      fun s v running => storeDiscarded_changes_nothing running 5 v⟩
  · exact ⟨fun _ => decodeKey_of_store_row 0x7F 0x0E false 6 (by decide),
      fun s v running => storeDiscarded_changes_nothing running 6 v⟩

end Sys2Proof.Machine
end

section
/-! SUPPORT. The rows of the decode table that are decided by the kind alone (30_encoding.md R91, R95): bits 14:11 are
compared, DLAB, offset and data byte are not. -/

namespace Sys2Proof

/-- A key has kind `n` when every high byte that fits `b` on the kind's bits does. -/
theorem DecodeKey.kind_of_row (b : Byte) {n : Kind}
    (row : ∀ high : Byte, high &&& 0x78 = b → high.extractLsb' 3 4 = n)
    {k : DecodeKey} (fits : k &&& (0x78#8 ++ 0#8) = b ++ 0#8) : k.request.kind = n :=
  k.kind_eq.trans (row k.high ((k.masked_iff 0x78 b).mp fits))

/-- A key of kind 2 is SERVICE. -/
theorem decodeKey_of_kind_two {k : DecodeKey} (kind : k.request.kind = 2) : decodeKey k = .ok .service := by
  have parsed : parseRequest k.request = some .service := by simp [parseRequest, kind]
  simp [decodeKey, decode, parsed, Request.select]

end Sys2Proof
end

section
/-! SUPPORT. What SERVICE leaves (42_irq_service.md R140): one signal or none, and everything else unchanged. -/

namespace Sys2Proof.Machine

/-- Settles O21: SERVICE ends by appending one signal or nothing, and in a legal configuration its condition is IER bit 0
together with input. -/
theorem serviceSignalsExactlyOnInputWhileEnabled : Obligations.ServiceSignalsExactlyOnInputWhileEnabled := by
  unfold Obligations.ServiceSignalsExactlyOnInputWhileEnabled
  refine ⟨fun k fits => decodeKey_of_kind_two (k.kind_of_row 0x10 (by decide) fits), fun s running legal => ?_⟩
  refine ⟨_, exec_service_running running, rfl, ?_, ?_, emitAll_setReturned_frame _ _ s⟩
  · intro signals
    have cond : s.irqCond = true := (irqCond_iff legal).mpr signals
    simp [cond]
  · intro silent
    have cond : ¬ s.irqCond = true := fun c => silent ((irqCond_iff legal).mp c)
    simp [cond]

end Sys2Proof.Machine
end

section
/-! SUPPORT. The SUSPEND and RESUME rows of the decode table (30_encoding.md R91, R95). -/

namespace Sys2Proof

/-- A key of kind 5 is SUSPEND. -/
theorem decodeKey_of_kind_five {k : DecodeKey} (kind : k.request.kind = 5) : decodeKey k = .ok .suspend := by
  have parsed : parseRequest k.request = some .suspend := by simp [parseRequest, kind]
  simp [decodeKey, decode, parsed, Request.select]

/-- A key of kind 6 is RESUME. -/
theorem decodeKey_of_kind_six {k : DecodeKey} (kind : k.request.kind = 6) : decodeKey k = .ok .resume := by
  have parsed : parseRequest k.request = some .resume := by simp [parseRequest, kind]
  simp [decodeKey, decode, parsed, Request.select]

end Sys2Proof
end

section
/-! SUPPORT. What SUSPEND and RESUME leave (43_host_port.md R154, R155): the flag at a fixed value, and everything else
unchanged, so that a second time changes nothing. -/

namespace Sys2Proof.Machine

/-- Ending an operation that sets the suspended flag changes the flag and the returned byte alone. -/
theorem setSuspended_setReturned_frame (b : Bool) (v : Option Byte) (s : State) :
    Frame [.suspended, .returned] s ((s.setSuspended b).setReturned v) := by
  intro p hp
  cases p with
  | suspended => simp at hp
  | returned => simp at hp
  | _ => rfl

/-- Setting the suspended flag a second time to the same value leaves the state as the first time left it. -/
theorem setSuspended_setReturned_idem (b : Bool) (v : Option Byte) (s : State) :
    (((s.setSuspended b).setReturned v).setSuspended b).setReturned v = (s.setSuspended b).setReturned v := rfl

/-- An operation that in `Running` does no more than set the suspended flag changes that flag alone, and twice is as
once: the device still runs after it. -/
theorem exec_setSuspended_once_or_twice {i : Instr} {b : Bool}
    (sets : ∀ {s : State}, s.life = .running → exec i s = .next ((s.setSuspended b).setReturned none))
    {s : State} (running : s.life = .running) :
    ∃ t, exec i s = .next t ∧ t.suspended = b ∧ t.returned = none ∧
      Frame [.suspended, .returned] s t ∧ exec i t = .next t := by
  have still_running : ((s.setSuspended b).setReturned none).life = .running := by simp [running]
  have again := sets still_running
  rw [setSuspended_setReturned_idem] at again
  exact ⟨_, sets running, by simp, rfl, setSuspended_setReturned_frame b none s, again⟩

/-- Settles O26: the row is kind 5, and SUSPEND sets the flag to true and nothing else. -/
theorem suspendSetsTheFlag : Obligations.SuspendSetsTheFlag := by
  unfold Obligations.SuspendSetsTheFlag
  exact ⟨fun k fits => decodeKey_of_kind_five (k.kind_of_row 0x28 (by decide) fits),
    fun _ running => exec_setSuspended_once_or_twice exec_suspend_running running⟩

/-- Settles O27: the row is kind 6, and RESUME sets the flag to false and nothing else. -/
theorem resumeClearsTheFlag : Obligations.ResumeClearsTheFlag := by
  unfold Obligations.ResumeClearsTheFlag
  exact ⟨fun k fits => decodeKey_of_kind_six (k.kind_of_row 0x30 (by decide) fits),
    fun _ running => exec_setSuspended_once_or_twice exec_resume_running running⟩

end Sys2Proof.Machine
end

section
/-! SUPPORT. Register accesses on a running device (60_exceptions.md R170, 41_stores.md R131): every row of the decode
table completes, a LOAD with a byte and a STORE with none. -/

namespace Sys2Proof.Machine

/-- Every row of the unbanked LOAD column returns a byte. -/
theorem exec_loadAt_returns_byte {s : State} (running : s.life = .running) (off : Offset) :
    ∃ t b, exec (loadAt off) s = .next t ∧ t.returned = some b := by
  unfold loadAt
  split
  · exact ⟨_, _, exec_loadRbr_running running, rfl⟩
  · exact ⟨_, _, exec_loadIer_running running, rfl⟩
  · exact ⟨_, _, exec_loadIir_running running, rfl⟩
  · exact ⟨_, _, exec_loadLcr_running running, rfl⟩
  · exact ⟨_, _, exec_loadMcr_running running, rfl⟩
  · exact ⟨_, _, exec_loadLsr_running running, rfl⟩
  · exact ⟨_, _, exec_loadMsr_running running, rfl⟩
  · exact ⟨_, _, exec_loadScr_running running, rfl⟩

/-- Every row of the unbanked STORE column returns nothing. -/
theorem exec_storeAt_returns_none {s : State} (running : s.life = .running) (off : Offset) (v : Byte) :
    ∃ t, exec (storeAt off v) s = .next t ∧ t.returned = none := by
  unfold storeAt
  split
  · exact ⟨_, exec_storeThr_running running v, rfl⟩
  · exact ⟨_, exec_storeIer_running running v, rfl⟩
  · exact ⟨_, exec_storeFcr_running running v, rfl⟩
  · exact ⟨_, exec_storeLcr_running running v, rfl⟩
  · exact ⟨_, exec_storeMcr_running running v, rfl⟩
  · exact ⟨_, exec_storeLsr_running running v, rfl⟩
  · exact ⟨_, exec_storeMsr_running running v, rfl⟩
  · exact ⟨_, exec_storeScr_running running v, rfl⟩

/-- A LOAD returns a byte: from DLL or DLM where DLAB banks the offset, else from its row of the unbanked column. -/
theorem exec_select_load_returns_byte {s : State} (running : s.life = .running) (dlab : Bool) (off : Offset) :
    ∃ t b, exec ((Request.load off).select dlab) s = .next t ∧ t.returned = some b := by
  rw [Request.select, selectLoad]
  split_ifs
  · exact ⟨_, _, exec_loadDll_running running, rfl⟩
  · exact ⟨_, _, exec_loadDlm_running running, rfl⟩
  · exact exec_loadAt_returns_byte running off

/-- A STORE returns nothing: to DLL or DLM where DLAB banks the offset, else to its row of the unbanked column. -/
theorem exec_select_store_returns_none {s : State} (running : s.life = .running) (dlab : Bool) (off : Offset)
    (v : Byte) : ∃ t, exec ((Request.store off v).select dlab) s = .next t ∧ t.returned = none := by
  rw [Request.select, selectStore]
  split_ifs
  · exact ⟨_, exec_storeDll_running running v, rfl⟩
  · exact ⟨_, exec_storeDlm_running running v, rfl⟩
  · exact exec_storeAt_returns_none running off v

/-- Settles O34: the operation a LOAD or STORE selects completes at every offset, under either DLAB value. -/
theorem everyRegisterAccessCompletes : Obligations.EveryRegisterAccessCompletes := by
  unfold Obligations.EveryRegisterAccessCompletes
  intro s dlab off v running
  exact ⟨exec_select_load_returns_byte running dlab off, exec_select_store_returns_none running dlab off v⟩

end Sys2Proof.Machine
end

section
/-! SUPPORT. The request an operation is presented by, and the DLAB values that reach it (30_encoding.md R71, R91,
R92): `Instr.request` and `Request.select` are inverse to each other, under a DLAB value that reaches the operation.
-/

namespace Sys2Proof

/-- An offset is one of the eight of the window (20_memory.md R50). -/
theorem Offset.eq_literal (off : Offset) :
    off = 0 ∨ off = 1 ∨ off = 2 ∨ off = 3 ∨ off = 4 ∨ off = 5 ∨ off = 6 ∨ off = 7 := by
  revert off; decide

/-- A DLAB value reaches an operation when the operation is banked under it or not banked at all. -/
theorem Instr.wf_iff (dlab : Bool) (i : Instr) : i.wf dlab = true ↔ i.bank = none ∨ i.bank = some dlab := by
  unfold Instr.wf
  split <;> simp_all

/-- The operation a request selects is presented by that request. -/
@[simp] theorem Request.request_select (r : Request) (dlab : Bool) : (r.select dlab).request = r := by
  cases r with
  | load off => rcases off.eq_literal with rfl | rfl | rfl | rfl | rfl | rfl | rfl | rfl <;> cases dlab <;> rfl
  | store off v => rcases off.eq_literal with rfl | rfl | rfl | rfl | rfl | rfl | rfl | rfl <;> cases dlab <;> rfl
  | _ => rfl

/-- The DLAB value a request is selected under reaches the operation selected. -/
theorem Request.select_wf (r : Request) (dlab : Bool) : (r.select dlab).wf dlab = true := by
  cases r with
  | load off => rcases off.eq_literal with rfl | rfl | rfl | rfl | rfl | rfl | rfl | rfl <;> cases dlab <;> rfl
  | store off v => rcases off.eq_literal with rfl | rfl | rfl | rfl | rfl | rfl | rfl | rfl <;> cases dlab <;> rfl
  | _ => rfl

/-- Under a DLAB value that reaches it, an operation is the one its request selects. -/
theorem Instr.select_request {dlab : Bool} {i : Instr} (wf : i.wf dlab = true) : i.request.select dlab = i := by
  rw [Instr.wf_iff] at wf
  cases dlab <;> cases i <;> simp [Instr.bank] at wf <;> rfl

/-- Every operation is selected by its request under some DLAB value. -/
theorem Instr.exists_select_request (i : Instr) : ∃ dlab, i.request.select dlab = i := by
  refine ⟨i.bank.getD false, Instr.select_request ((Instr.wf_iff _ i).mpr ?_)⟩
  cases i.bank <;> simp

/-- Settles O1: an operation's word parses to its request, which selects the operation under a DLAB value that reaches
it; the decode key carries the same word and that DLAB value. -/
theorem decodeOfEncodeIsIdentity : Obligations.DecodeOfEncodeIsIdentity := by
  unfold Obligations.DecodeOfEncodeIsIdentity
  intro dlab i wf
  have decoded : decode (encode i) dlab = .ok i := by rw [encode, decode_word, Instr.select_request wf]
  refine ⟨decoded, ?_⟩
  rw [decodeKey, encodeKey_request, encodeKey_dlab, decoded]

end Sys2Proof
end

section
/-! SUPPORT. What a word that decodes says (30_encoding.md R90 to R95): its request, and the fields that request uses.
-/

namespace Sys2Proof

/-- A word decodes to an operation exactly when it spells a request that selects the operation. -/
theorem decode_ok_iff {w : RequestWord} {dlab : Bool} {i : Instr} :
    decode w dlab = .ok i ↔ ∃ r, parseRequest w = some r ∧ r.select dlab = i := by
  unfold decode
  split <;> simp_all

/-- A word that spells a request decodes to the operation the request selects. -/
theorem decodeKey_of_parse {k : DecodeKey} {r : Request} (parsed : parseRequest k.request = some r) :
    decodeKey k = .ok (r.select k.dlab) :=
  decode_ok_iff.mpr ⟨r, parsed, rfl⟩

/-- The data operand of a request that has one (30_encoding.md R90). -/
def Request.data? : Request → Option Byte
  | .store _ v => some v
  | .hostRx b => some b
  | _ => none

theorem Instr.data?_eq_request (i : Instr) : i.data? = i.request.data? := by cases i <;> rfl

/-- The data operand of a request a word spells is the word's data byte. -/
theorem data_of_parse {w : RequestWord} {r : Request} {v : Byte} (parsed : parseRequest w = some r)
    (operand : r.data? = some v) : v = w.data := by
  unfold parseRequest at parsed
  split at parsed <;> cases parsed <;> cases operand <;> rfl

/-- The bits of a request word a request is spelt with; the others are ignored (30_encoding.md R95). -/
def Request.usedBits : Request → RequestWord
  | .load _ => requestWord 0b1111 0b111 0x00
  | .store _ _ => requestWord 0b1111 0b111 0xFF
  | .hostRx _ => requestWord 0b1111 0b000 0xFF
  | .service => requestWord 0b1111 0b000 0x00
  | .hostTxPop => requestWord 0b1111 0b000 0x00
  | .suspend => requestWord 0b1111 0b000 0x00
  | .resume => requestWord 0b1111 0b000 0x00
  | .construct => requestWord 0b1111 0b000 0x00
  | .stop => requestWord 0b1111 0b000 0x00

/-- The used bits of an operation's request are those of its table row and its data byte. -/
theorem Instr.usedBits_request (i : Instr) :
    i.pattern.mask.extractLsb' 0 15 ||| (if i.data?.isSome then 0x00FF else 0x0000) = i.request.usedBits := by
  cases i <;> simp [Instr.pattern, Instr.data?, Instr.request, Request.usedBits, requestWord]

/-- A word masked field by field. -/
theorem requestWord_masked (w : RequestWord) (o : Offset) (v : Byte) :
    requestWord w.kind (w.off &&& o) (w.data &&& v) = w &&& requestWord 0b1111 o v := by
  apply BitVec.eq_of_getLsbD_eq
  intro n hn
  rw [BitVec.getLsbD_and, requestWord_bit, requestWord_bit]
  split
  case isTrue data => simp [RequestWord.data, data]
  case isFalse above_data =>
    split
    case isTrue off => simp [RequestWord.off, off, show 8 + (n - 8) = n by omega]
    case isFalse above_off =>
      have ones : ∀ j < 4, (0b1111 : Kind).getLsbD j = true := by decide
      rw [ones _ (by omega), Bool.and_true, RequestWord.kind, BitVec.getLsbD_extractLsb']
      simp [show n - 8 - 3 < 4 by omega, show 11 + (n - 8 - 3) = n by omega]

/-- A word that spells a request is that request's word but for the bits it ignores. -/
theorem word_of_parse {w : RequestWord} {r : Request} (parsed : parseRequest w = some r) :
    r.word = w &&& r.usedBits := by
  have all_off (o : Offset) : o &&& 0b111#3 = o := BitVec.and_allOnes
  have all_data (v : Byte) : v &&& 0xFF#8 = v := BitVec.and_allOnes
  unfold parseRequest at parsed
  split at parsed
  case h_10 => cases parsed
  all_goals
    next kind =>
      have kind_eq := (BitVec.ofNat_toNat 4 w.kind).symm
      rw [kind, BitVec.setWidth_eq] at kind_eq
      cases parsed
      rw [Request.word, Request.usedBits, ← requestWord_masked, kind_eq]
      simp [all_off, all_data]

/-- Settles O3: the word spells a request, is that request's word but for the bits it ignores, and the DLAB value the
request is selected under reaches the operation. -/
theorem encodeZeroesTheIgnoredBits : Obligations.EncodeZeroesTheIgnoredBits := by
  unfold Obligations.EncodeZeroesTheIgnoredBits
  intro w dlab i decoded
  obtain ⟨r, parsed, rfl⟩ := decode_ok_iff.mp decoded
  refine ⟨r.select_wf dlab, ?_⟩
  rw [Instr.usedBits_request, encode, Request.request_select, word_of_parse parsed]

/-- Settles O5: each word is a closed term, and the decoder computes on it. -/
theorem writtenOutWordsDecode : Obligations.WrittenOutWordsDecode := by
  unfold Obligations.WrittenOutWordsDecode
  decide

end Sys2Proof
end

section
/-! SUPPORT. The rows of opcode_table.json: a decode key decodes to an operation exactly when it fits the operation's
row and carries its data byte. The high byte of the key decides the row. -/

namespace Sys2Proof

/-- A row compares the high byte alone: the low byte of its match and of its mask is 0. -/
theorem Instr.fits_iff_high (i : Instr) (k : DecodeKey) :
    i.pattern.fits k = true ↔ k.high &&& i.pattern.mask.high = i.pattern.bits.high := by
  have low_zero : i.pattern.mask = i.pattern.mask.high ++ 0#8 ∧ i.pattern.bits = i.pattern.bits.high ++ 0#8 := by
    cases i <;> simp only [Instr.pattern] <;> decide
  obtain ⟨mask, bits⟩ := low_zero
  rw [← k.masked_iff, ← mask, ← bits, Pattern.fits, beq_iff_eq]

/-- Which row a STORE stands for does not depend on its data byte. -/
theorem selectStore_pattern (dlab : Bool) (off : Offset) (v : Byte) :
    (selectStore dlab off v).pattern = (selectStore dlab off 0).pattern := by
  rcases off.eq_literal with rfl | rfl | rfl | rfl | rfl | rfl | rfl | rfl <;> cases dlab <;> rfl

/-- Which row HOST_RX stands for does not depend on its data byte. -/
theorem hostRx_pattern (b : Byte) : (Instr.hostRx b).pattern = (Instr.hostRx 0).pattern := rfl

/-- A key that spells a request fits the row of the operation the request selects. -/
theorem fits_of_parse {k : DecodeKey} {r : Request} (parsed : parseRequest k.request = some r) :
    (r.select k.dlab).pattern.fits k = true := by
  rw [Instr.fits_iff_high, k.dlab_eq]
  unfold parseRequest at parsed
  split at parsed
  case h_10 => cases parsed
  all_goals
    next kind =>
      rw [k.kind_eq] at kind
      cases parsed
      simp only [Request.select, selectStore_pattern, hostRx_pattern, k.off_eq]
      generalize k.high = high at kind ⊢
      revert high
      decide

/-- A key of kind 3 is HOST_RX of its data byte. -/
theorem decodeKey_of_kind_three {k : DecodeKey} (kind : k.request.kind = 3) :
    decodeKey k = .ok (.hostRx k.request.data) := by
  have parsed : parseRequest k.request = some (.hostRx k.request.data) := by simp [parseRequest, kind]
  exact decodeKey_of_parse parsed

/-- A key of kind 4 is HOST_TX_POP. -/
theorem decodeKey_of_kind_four {k : DecodeKey} (kind : k.request.kind = 4) : decodeKey k = .ok .hostTxPop := by
  have parsed : parseRequest k.request = some .hostTxPop := by simp [parseRequest, kind]
  exact decodeKey_of_parse parsed

/-- A key of kind 7 is CONSTRUCT. -/
theorem decodeKey_of_kind_seven {k : DecodeKey} (kind : k.request.kind = 7) : decodeKey k = .ok .construct := by
  have parsed : parseRequest k.request = some .construct := by simp [parseRequest, kind]
  exact decodeKey_of_parse parsed

/-- A key of kind 8 is STOP. -/
theorem decodeKey_of_kind_eight {k : DecodeKey} (kind : k.request.kind = 8) : decodeKey k = .ok .stop := by
  have parsed : parseRequest k.request = some .stop := by simp [parseRequest, kind]
  exact decodeKey_of_parse parsed

/-- A key that fits an operation's row and carries its data byte decodes to that operation. -/
theorem decodeKey_of_row {k : DecodeKey} {i : Instr} (row : k &&& i.pattern.mask = i.pattern.bits)
    (operand : ∀ v, i.data? = some v → v = k.request.data) : decodeKey k = .ok i := by
  cases i with
  | loadRbr => exact decodeKey_of_load_row 0xFF 0x00 (by decide) row
  | loadDll => exact decodeKey_of_load_row 0xFF 0x80 (by decide) row
  | loadIer => exact decodeKey_of_load_row 0xFF 0x01 (by decide) row
  | loadDlm => exact decodeKey_of_load_row 0xFF 0x81 (by decide) row
  | loadIir => exact decodeKey_of_load_row 0x7F 0x02 (by decide) row
  | loadLcr => exact decodeKey_of_load_row 0x7F 0x03 (by decide) row
  | loadMcr => exact decodeKey_of_load_row 0x7F 0x04 (by decide) row
  | loadLsr => exact decodeKey_of_load_row 0x7F 0x05 (by decide) row
  | loadMsr => exact decodeKey_of_load_row 0x7F 0x06 (by decide) row
  | loadScr => exact decodeKey_of_load_row 0x7F 0x07 (by decide) row
  | storeThr v => rw [operand v rfl]; exact decodeKey_of_store_row 0xFF 0x08 false 0 (by decide) row
  | storeDll v => rw [operand v rfl]; exact decodeKey_of_store_row 0xFF 0x88 true 0 (by decide) row
  | storeIer v => rw [operand v rfl]; exact decodeKey_of_store_row 0xFF 0x09 false 1 (by decide) row
  | storeDlm v => rw [operand v rfl]; exact decodeKey_of_store_row 0xFF 0x89 true 1 (by decide) row
  | storeFcr v => rw [operand v rfl]; exact decodeKey_of_store_row 0x7F 0x0A false 2 (by decide) row
  | storeLcr v => rw [operand v rfl]; exact decodeKey_of_store_row 0x7F 0x0B false 3 (by decide) row
  | storeMcr v => rw [operand v rfl]; exact decodeKey_of_store_row 0x7F 0x0C false 4 (by decide) row
  | storeLsr v => rw [operand v rfl]; exact decodeKey_of_store_row 0x7F 0x0D false 5 (by decide) row
  | storeMsr v => rw [operand v rfl]; exact decodeKey_of_store_row 0x7F 0x0E false 6 (by decide) row
  | storeScr v => rw [operand v rfl]; exact decodeKey_of_store_row 0x7F 0x0F false 7 (by decide) row
  | service => exact decodeKey_of_kind_two (k.kind_of_row 0x10 (by decide) row)
  | hostRx b => rw [operand b rfl]; exact decodeKey_of_kind_three (k.kind_of_row 0x18 (by decide) row)
  | hostTxPop => exact decodeKey_of_kind_four (k.kind_of_row 0x20 (by decide) row)
  | suspend => exact decodeKey_of_kind_five (k.kind_of_row 0x28 (by decide) row)
  | resume => exact decodeKey_of_kind_six (k.kind_of_row 0x30 (by decide) row)
  | construct => exact decodeKey_of_kind_seven (k.kind_of_row 0x38 (by decide) row)
  | stop => exact decodeKey_of_kind_eight (k.kind_of_row 0x40 (by decide) row)

/-- Settles O2: a key that decodes spells a request, which fits the row it selects and carries the key's data byte; and
each row decodes by its high byte. -/
theorem decodedKeyFitsExactlyItsTableRow : Obligations.DecodedKeyFitsExactlyItsTableRow := by
  unfold Obligations.DecodedKeyFitsExactlyItsTableRow
  intro k i
  constructor
  · intro decoded
    obtain ⟨r, parsed, rfl⟩ := decode_ok_iff.mp decoded
    refine ⟨fits_of_parse parsed, fun v operand => data_of_parse parsed ?_⟩
    rw [← operand, Instr.data?_eq_request, Request.request_select]
  · rintro ⟨fits, operand⟩
    exact decodeKey_of_row (beq_iff_eq.mp fits) operand

end Sys2Proof
end

section
/-! SUPPORT. What an operation that completes does to each part of the state, read off its effect: to the receive FIFO
(10_state.md R32), to the transmit FIFO and the bytes sent to the host (R33), to the history (R37), to the life (R35)
and to the configuration (R36). -/

namespace Sys2Proof.Machine

/-- A LOAD is no other operation. -/
theorem load_request {i : Instr} {off : Offset} (isLoad : ∃ dlab, i = (Request.load off).select dlab) :
    i.request = .load off := by
  obtain ⟨dlab, rfl⟩ := isLoad
  exact Request.request_select _ dlab

/-- A STORE is no other operation. -/
theorem store_request {i : Instr} {off : Offset} {v : Byte} (isStore : ∃ dlab, i = (Request.store off v).select dlab) :
    i.request = .store off v := by
  obtain ⟨dlab, rfl⟩ := isStore
  exact Request.request_select _ dlab

/-! ## The receive FIFO -/

/-- What an operation that completes does to the receive FIFO. -/
inductive RxEffect (i : Instr) (s t : State) : Prop where
  | kept (same : t.rx = s.rx) (discards : ∀ b, i = .hostRx b → s.suspended = true) (stale : i = .loadRbr → s.rx = [])
  | received (b : Byte) (op : i = .hostRx b) (accepting : s.suspended = false) (room : s.rxFull = false)
      (pushed : t.rx = s.rx ++ [b])
  | delivered (b : Byte) (op : i = .loadRbr) (popped : s.rx = b :: t.rx) (returned : t.returned = some b)
  | emptied (op : i = .stop ∨ i = .construct) (empty : t.rx = [])

theorem Effect.rx {i : Instr} {s t : State} (effect : Effect i s t) : RxEffect i s t := by
  cases effect with
  | loadRbr =>
    cases input : s.rx with
    | nil => exact .kept (by simp [input]) (by simp) (fun _ => input)
    | cons b rest => exact .delivered b rfl (by simp [input]) (by simp [input])
  | load _ _ off v plain isLoad =>
    exact .kept rfl (by rintro b rfl; cases load_request isLoad) (fun op => absurd op plain)
  | store _ _ r off stored v plain masked isStore =>
    exact .kept rfl (by rintro b rfl; cases store_request isStore) (by rintro rfl; cases store_request isStore)
  | discard _ _ off v plain isStore =>
    exact .kept rfl (by rintro b rfl; cases store_request isStore) (by rintro rfl; cases store_request isStore)
  | hostRxDiscards _ b suspended => exact .kept rfl (fun _ _ => suspended) (by simp)
  | hostRxQueues _ b accepting room => exact .received b rfl accepting room rfl
  | stop => exact .emptied (.inl rfl) rfl
  | _ => exact .kept rfl (by simp) (by simp)

theorem exec_rx {i : Instr} {s t : State} (h : exec i s = .next t) : RxEffect i s t := by
  by_cases op : i = .construct
  · subst op
    obtain ⟨-, -, ⟨-, rfl⟩ | ⟨-, rfl⟩⟩ := exec_construct_effect h
    · exact .kept rfl (by simp) (by simp)
    · exact .emptied (.inr rfl) rfl
  · exact (exec_effect h op).2.rx

/-! ## The transmit FIFO and the bytes sent to the host -/

@[simp] theorem latchRbr_tx (s : State) : s.latchRbr.tx = s.tx := latchRbr_frame s .tx (by simp)
@[simp] theorem latchRbr_events (s : State) : s.latchRbr.events = s.events := latchRbr_frame s .events (by simp)
@[simp] theorem latchRbr_life (s : State) : s.latchRbr.life = s.life := latchRbr_frame s .life (by simp)
@[simp] theorem latchRbr_cfg (s : State) : s.latchRbr.cfg = s.cfg := latchRbr_frame s .cfg (by simp)

@[simp] theorem hostOutput_irqSignal (line : Nat) : hostOutput [.irqSignal line] = [] := rfl
@[simp] theorem hostOutput_abort (reason : AbortReason) : hostOutput [.abort reason] = [] := rfl
@[simp] theorem hostOutput_hostOut_single (b : Byte) : hostOutput [.hostOut b] = [b] := rfl

/-- What an operation that completes does to the transmit FIFO, and which bytes it sends to the host. -/
inductive TxEffect (i : Instr) (s t : State) : Prop where
  | kept (same : t.tx = s.tx) (silent : hostOutput t.events = hostOutput s.events) (plain : ∀ v, i ≠ .storeThr v)
  | queued (v : Byte) (op : i = .storeThr v) (pushed : t.tx = s.tx ++ [v])
      (silent : hostOutput t.events = hostOutput s.events)
  | relayed (b : Byte) (op : i = .hostTxPop) (popped : s.tx = b :: t.tx)
      (sent : hostOutput t.events = hostOutput s.events ++ if s.draw.ok then [b] else [])
  | emptied (op : i = .stop ∨ i = .construct) (empty : t.tx = []) (n : Nat)
      (sent : hostOutput t.events = hostOutput s.events ++ s.tx.take n)

theorem Effect.tx {i : Instr} {s t : State} (effect : Effect i s t) : TxEffect i s t := by
  cases effect with
  | load _ _ off v plain isLoad => exact .kept rfl (by simp) (by rintro v rfl; cases load_request isLoad)
  | storeThr _ v => exact .queued v rfl rfl (by simp)
  | store _ _ r off stored v plain masked isStore =>
    exact .kept rfl (by simp) (by rintro w rfl; cases store_request isStore; exact plain rfl)
  | discard _ _ off v plain isStore =>
    exact .kept rfl (by simp) (by rintro w rfl; cases store_request isStore; exact plain rfl)
  | service => exact .kept rfl (by simp only [State.setReturned_events, State.emitAll_events]; split <;> simp) (by simp)
  | hostTxPop _ b rest oldest => exact .relayed b rfl oldest (by cases s.draw.ok <;> simp)
  | stop => exact .emptied (.inl rfl) rfl s.draw.relayed (by simp [-List.map_take])
  | _ => exact .kept (by simp) (by simp) (by simp)

theorem exec_tx {i : Instr} {s t : State} (h : exec i s = .next t) : TxEffect i s t := by
  by_cases op : i = .construct
  · subst op
    obtain ⟨-, -, ⟨-, rfl⟩ | ⟨-, rfl⟩⟩ := exec_construct_effect h
    · exact .kept rfl (by simp) (by simp)
    · exact .emptied (.inr rfl) rfl 0 (by simp [State.constructed])
  · exact (exec_effect h op).2.tx

/-! ## The history and the life -/

/-- What an operation that completes appends to the history, and the life it leaves. -/
inductive HistoryEffect (i : Instr) (s t : State) (new : List Event) : Prop where
  | quiet (alive : t.life = .running ∨ t.life = .stopped) (noSignal : ∀ line, Event.irqSignal line ∉ new)
      (noAbort : ∀ reason, Event.abort reason ∉ new)
  | signalled (alive : t.life = .running) (op : i = .service) (condition : s.irqCond = true)
      (signal : new = [.irqSignal s.cfg.irqLine])
  | aborted (dead : t.life = .aborted) (reason : AbortReason) (abort : new = [.abort reason])

/-- A Trace record is neither a signal nor an Abort. -/
theorem HistoryEffect.traced {i : Instr} {s t : State} (running : t.life = .running) (c : Config) (kind : AccessKind)
    (off : Offset) (v : Byte) : HistoryEffect i s t (traceEvents c kind off v) := by
  unfold traceEvents
  split <;> exact .quiet (.inl running) (by simp) (by simp)

theorem Effect.history {i : Instr} {s t : State} (running : s.life = .running) (effect : Effect i s t) :
    ∃ new, t.events = s.events ++ new ∧ HistoryEffect i s t new := by
  cases effect with
  | loadRbr =>
    refine ⟨_, ?_, .traced (by simp [running]) s.cfg .load 0 (s.latchRbr.read .rbr)⟩
    rw [State.setReturned_events, State.emitAll_events, latchRbr_events]
  | load => exact ⟨_, rfl, .traced (by simp [running]) ..⟩
  | storeThr => exact ⟨_, rfl, .traced (by simp [running]) ..⟩
  | store => exact ⟨_, rfl, .traced (by simp [running]) ..⟩
  | discard => exact ⟨_, rfl, .traced (by simp [running]) ..⟩
  | service =>
    refine ⟨_, rfl, ?_⟩
    split
    case isTrue condition => exact .signalled running rfl condition rfl
    case isFalse => exact .quiet (.inl running) (by simp) (by simp)
  | hostTxPop _ b rest => 
    exact ⟨_, rfl, .quiet (.inl running) (by cases s.draw.ok <;> simp) (by cases s.draw.ok <;> simp)⟩
  | stop => exact ⟨_, rfl, .quiet (.inr rfl) (by simp [-List.map_take]) (by simp [-List.map_take])⟩
  | _ => exact ⟨[], by simp, .quiet (.inl running) (by simp) (by simp)⟩

theorem exec_history {i : Instr} {s t : State} (h : exec i s = .next t) :
    ∃ new, t.events = s.events ++ new ∧ HistoryEffect i s t new := by
  by_cases op : i = .construct
  · subst op
    obtain ⟨-, -, ⟨-, rfl⟩ | ⟨-, rfl⟩⟩ := exec_construct_effect h
    · exact ⟨_, rfl, .aborted rfl .startup rfl⟩
    · exact ⟨[], by simp [State.constructed], .quiet (.inl rfl) (by simp) (by simp)⟩
  · obtain ⟨running, effect⟩ := exec_effect h op
    exact effect.history running

/-! ## The configuration -/

/-- An operation other than CONSTRUCT leaves the configuration. -/
theorem Effect.cfg {i : Instr} {s t : State} (effect : Effect i s t) : t.cfg = s.cfg := by
  cases effect with
  | loadRbr => simp
  | _ => rfl

end Sys2Proof.Machine
end

section
/-! SUPPORT. The invariants (10_state.md R39, 43_host_port.md R156, 60_exceptions.md R172): they read neither the
draws nor the schedule, every operation keeps them, and so does the bridge's fault step. -/

namespace Sys2Proof.Machine

/-! ## The configuration, IER and the receive FIFO (10_state.md R39) -/

/-- The invariant reads the configuration, IER and the receive FIFO alone. -/
theorem State.Inv.of_frame {w : List Part} {s t : State} (inv : s.Inv) (frame : Frame w s t) (cfg : .cfg ∉ w)
    (ier : .reg .ier ∉ w) (rx : .rx ∉ w) : t.Inv := by
  have same_cfg : t.cfg = s.cfg := frame .cfg cfg
  have same_ier : t.read .ier = s.read .ier := frame (.reg .ier) ier
  have same_rx : t.rx = s.rx := frame .rx rx
  rw [State.Inv, same_cfg, same_ier, same_rx]
  exact inv

/-- In a legal configuration an operation other than CONSTRUCT keeps IER bits 7:4 at 0: a STORE of IER masks its byte.
-/
theorem Effect.ier_reserved {i : Instr} {s t : State} (effect : Effect i s t) (legal : s.cfg.wf = true)
    (reserved : s.read .ier &&& 0xF0 = 0) : t.read .ier &&& 0xF0 = 0 := by
  cases effect with
  | loadRbr =>
    have same : s.latchRbr.read .ier = s.read .ier := latchRbr_frame s (.reg .ier) (by simp)
    rw [State.setReturned_read, State.emitAll_read, same, reserved]
  | store _ _ r off stored v plain masked isStore =>
    rw [State.setReturned_read, State.emitAll_read, State.read_write]
    split
    case isTrue is_ier => rw [masked is_ier.symm, maskIer_reserved legal]
    case isFalse => exact reserved
  | _ => exact reserved

/-- An operation that leaves the configuration keeps the receive FIFO within `RX_DEPTH`: HOST_RX pushes into a FIFO
with room. -/
theorem RxEffect.bounded {i : Instr} {s t : State} (effect : RxEffect i s t) (same_cfg : t.cfg = s.cfg)
    (bounded : ∀ depth, s.cfg.rxDepth = some depth → s.rx.length ≤ depth) :
    ∀ depth, t.cfg.rxDepth = some depth → t.rx.length ≤ depth := by
  intro depth rxDepth
  rw [same_cfg] at rxDepth
  have within := bounded depth rxDepth
  cases effect with
  | kept same => rwa [same]
  | received b _ _ room pushed =>
    have not_full : ¬ depth ≤ s.rx.length := fun full => by
      simp [(rxFull_iff s).mpr ⟨depth, rxDepth, full⟩] at room
    rw [pushed, List.length_append, List.length_singleton]
    omega
  | delivered b _ popped =>
    rw [popped, List.length_cons] at within
    omega
  | emptied _ empty => simp [empty]

@[simp] theorem constructed_ier (s : State) : s.constructed.read .ier = 0 := rfl

theorem exec_keeps_inv {i : Instr} {s t : State} (inv : s.Inv) (h : exec i s = .next t) : t.Inv := by
  obtain ⟨legal, reserved, bounded⟩ := inv
  by_cases op : i = .construct
  · subst op
    obtain ⟨-, operand, ⟨-, rfl⟩ | ⟨-, rfl⟩⟩ := exec_construct_effect h
    · exact ⟨legal, reserved, bounded⟩
    · exact ⟨operand, by simp, by simp [State.constructed]⟩
  · obtain ⟨-, effect⟩ := exec_effect h op
    exact ⟨effect.cfg ▸ legal, effect.ier_reserved legal reserved, effect.rx.bounded effect.cfg bounded⟩

/-- Settles O37: every operation keeps the invariant, and the bridge's fault step writes none of the parts it reads. -/
theorem stepKeepsIerMaskedAndRxBounded : Obligations.StepKeepsIerMaskedAndRxBounded := by
  unfold Obligations.StepKeepsIerMaskedAndRxBounded
  intro s t inv next
  refine @step_keeps State.Inv ?reads ?ops ?fault s t inv next
  case reads => exact fun s t frame inv => inv.of_frame frame (by simp) (by simp) (by simp)
  case ops => exact fun i s t inv h => exec_keeps_inv inv h
  case fault => exact fun s inv _ => inv

/-! ## A torn-down device is empty (43_host_port.md R156) -/

/-- STOP leaves both FIFOs empty, and no other operation leaves the device in `Stopped`. -/
theorem exec_keeps_stoppedIsEmpty {i : Instr} {s t : State} (h : exec i s = .next t) : t.StoppedIsEmpty := by
  intro stopped
  by_cases op : i = .construct
  · subst op
    obtain ⟨-, -, ⟨-, rfl⟩ | ⟨-, rfl⟩⟩ := exec_construct_effect h <;> cases stopped
  · obtain ⟨running, effect⟩ := exec_effect h op
    cases effect with
    | stop => exact ⟨rfl, rfl⟩
    | loadRbr => simp [running] at stopped
    | _ => cases running.symm.trans stopped

/-- Settles O38: an operation that leaves the device in `Stopped` is STOP, which empties both FIFOs; the bridge's fault
step leaves it in `Aborted`. -/
theorem stepKeepsStoppedEmpty : Obligations.StepKeepsStoppedEmpty := by
  unfold Obligations.StepKeepsStoppedEmpty
  intro s t _ next
  obtain ⟨i, u, -, done⟩ | ⟨u, -, done⟩ := step_next next
  · exact exec_keeps_stoppedIsEmpty done
  · obtain ⟨-, rfl⟩ := execBridgeFault_next done
    intro stopped
    cases stopped

/-! ## An Abort in the history (60_exceptions.md R172) -/

/-- No operation completes in `Aborted`. -/
theorem exec_next_ne_aborted {i : Instr} {s t : State} (h : exec i s = .next t) : s.life ≠ .aborted := by
  by_cases op : i = .construct
  · subst op
    obtain ⟨dead | dead, -⟩ := exec_construct_effect h <;> simp [dead]
  · simp [exec_next_running h op]

theorem exec_keeps_abortIsRecorded {i : Instr} {s t : State} (recorded : s.AbortIsRecorded)
    (h : exec i s = .next t) : t.AbortIsRecorded := by
  have none_before (reason : AbortReason) : Event.abort reason ∉ s.events :=
    fun mem => exec_next_ne_aborted h (recorded.mpr ⟨reason, mem⟩)
  obtain ⟨new, events, effect⟩ := exec_history h
  rw [State.AbortIsRecorded, events]
  cases effect with
  | quiet alive _ noAbort =>
    have not_aborted : t.life ≠ .aborted := by obtain life | life := alive <;> simp [life]
    simp [not_aborted, none_before, noAbort]
  | signalled alive _ _ signal => simp [alive, signal, none_before]
  | aborted dead reason abort => simp [dead, abort]

/-- Settles O39: no operation runs in `Aborted`, so there is no Abort before it, and it appends one exactly when it
enters `Aborted`, as the bridge's fault step does. -/
theorem stepKeepsAbortRecorded : Obligations.StepKeepsAbortRecorded := by
  unfold Obligations.StepKeepsAbortRecorded
  intro s t recorded next
  refine @step_keeps State.AbortIsRecorded ?reads ?ops ?fault s t recorded next
  case reads =>
    intro s t frame recorded
    have same_life : t.life = s.life := frame .life (by simp)
    have same_events : t.events = s.events := frame .events (by simp)
    rwa [State.AbortIsRecorded, same_life, same_events]
  case ops => exact fun i s t recorded h => exec_keeps_abortIsRecorded recorded h
  case fault => simp [State.AbortIsRecorded]

/-! ## The state after reset -/

/-- Settles O35: the opaque values of the state after reset are none of the parts listed. -/
theorem resetLeavesTheConstructedDevice : Obligations.ResetLeavesTheConstructedDevice := by
  unfold Obligations.ResetLeavesTheConstructedDevice
  refine ⟨rfl, rfl, rfl, rfl, rfl, rfl, rfl, rfl, rfl, rfl, rfl, rfl, rfl⟩

/-- The configuration at reset is legal: its codes are the decided ones and `RX_DEPTH` is unbounded. -/
theorem Config.atReset_wf : Config.atReset.wf = true := by
  have decided : Codes.decided.wf = true := by decide
  exact decided

/-- Settles O36: the codes at reset are legal, IER is 0, both FIFOs and the history are empty, and the device runs. -/
theorem resetMeetsTheInvariants : Obligations.ResetMeetsTheInvariants := by
  unfold Obligations.ResetMeetsTheInvariants
  refine ⟨⟨Config.atReset_wf, rfl, fun _ unbounded => ?_⟩, fun _ => ⟨rfl, rfl⟩, ?_⟩
  · cases unbounded
  · simp [State.AbortIsRecorded, State.reset]

end Sys2Proof.Machine
end

section
/-! SUPPORT. What every step does to the history (10_state.md R37) and to the configuration (R36). -/

namespace Sys2Proof.Machine

/-- Settles O41: every operation appends to the history, and so does the bridge's fault step. -/
theorem historyOnlyGrows : Obligations.HistoryOnlyGrows := by
  unfold Obligations.HistoryOnlyGrows
  intro s t next
  obtain ⟨i, u, fetched, done⟩ | ⟨u, fetched, done⟩ := step_next next
  · have same : u.events = s.events := fetch_op_frame fetched .events (by simp)
    obtain ⟨new, events, -⟩ := exec_history done
    exact ⟨new, by rw [events, same]⟩
  · have same : u.events = s.events := fetch_bridgeFault_frame fetched .events (by simp)
    obtain ⟨-, rfl⟩ := execBridgeFault_next done
    exact ⟨[.abort .wait], by simp [same]⟩

/-- An operation that changes the configuration is the CONSTRUCT of a new device. -/
theorem exec_changes_cfg {i : Instr} {s t : State} (h : exec i s = .next t) (changed : t.cfg ≠ s.cfg) :
    i = .construct ∧ (s.life = .unconstructed ∨ s.life = .stopped) ∧ t.life = .running ∧ t.cfg = s.draw.config := by
  by_cases op : i = .construct
  · subst op
    obtain ⟨dead, -, ⟨-, rfl⟩ | ⟨-, rfl⟩⟩ := exec_construct_effect h
    · exact absurd rfl changed
    · exact ⟨rfl, dead, rfl, rfl⟩
  · exact absurd (exec_effect h op).2.cfg changed

/-- Settles O40: fetching and the bridge's fault step leave the configuration, and only CONSTRUCT writes it. -/
theorem configurationIsFixedForALifetime : Obligations.ConfigurationIsFixedForALifetime := by
  unfold Obligations.ConfigurationIsFixedForALifetime
  intro s t next changed
  obtain ⟨i, u, fetched, done⟩ | ⟨u, fetched, done⟩ := step_next next
  · have same_cfg : u.cfg = s.cfg := fetch_op_frame fetched .cfg (by simp)
    have same_life : u.life = s.life := fetch_op_frame fetched .life (by simp)
    rw [← same_cfg] at changed
    obtain ⟨rfl, dead, alive, operand⟩ := exec_changes_cfg done changed
    exact ⟨same_life ▸ dead, alive, u, fetched, operand⟩
  · have same_cfg : u.cfg = s.cfg := fetch_bridgeFault_frame fetched .cfg (by simp)
    obtain ⟨-, rfl⟩ := execBridgeFault_next done
    exact absurd same_cfg changed

/-- Settles O45: of what a step can append, SERVICE under its condition appends one signal, and nothing else signals.
-/
theorem onlyServiceSignals : Obligations.OnlyServiceSignals := by
  unfold Obligations.OnlyServiceSignals
  intro s t new legal next appended line signal
  obtain ⟨i, u, fetched, done⟩ | ⟨u, fetched, done⟩ := step_next next
  · have frame := fetch_op_frame fetched
    have same_events : u.events = s.events := frame .events (by simp)
    have same_cfg : u.cfg = s.cfg := frame .cfg (by simp)
    have same_ier : u.read .ier = s.read .ier := frame (.reg .ier) (by simp)
    have same_rx : u.rx = s.rx := frame .rx (by simp)
    obtain ⟨emitted, events, effect⟩ := exec_history done
    rw [events, same_events, List.append_cancel_left_eq] at appended
    subst appended
    cases effect with
    | quiet _ noSignal => exact absurd signal (noSignal line)
    | aborted _ reason abort => simp [abort] at signal
    | signalled _ op condition signalled =>
      subst op signalled
      rw [irqCond_iff (same_cfg ▸ legal), same_ier, same_rx] at condition
      obtain ⟨enabled, input⟩ := condition
      rw [same_cfg] at signal ⊢
      exact ⟨rfl, by simpa using signal, enabled, input, u, fetched⟩
  · have same_events : u.events = s.events := fetch_bridgeFault_frame fetched .events (by simp)
    obtain ⟨-, rfl⟩ := execBridgeFault_next done
    rw [State.setReturned_events, State.setLife_events, State.emitAll_events, same_events,
      List.append_cancel_left_eq] at appended
    simp [← appended] at signal

end Sys2Proof.Machine
end

section
/-! SUPPORT. Runs (10_state.md R42, 20_memory.md R62, R63): what a run collects and what holds along it, step by step.
-/

namespace Sys2Proof.Machine

theorem along_succ {f : State → List Byte} {n : Nat} {s t : State} (h : step s = .next t) :
    along f (n + 1) s = f s ++ along f n t := by
  simp [along, h]

theorem throughout_succ {p : Instr → State → Prop} {n : Nat} {s t : State} (h : step s = .next t) :
    Throughout p (n + 1) s ↔ (∀ i u, fetch s = .op i u → p i u) ∧ Throughout p n t := by
  simp [Throughout, h]

end Sys2Proof.Machine
end

section
/-! SUPPORT. The receive FIFO over every run: input stays until it is read (10_state.md R42), and received bytes come
back in push order, each once (20_memory.md R62). -/

namespace Sys2Proof.Machine

/-- The bridge's fault step leaves both FIFOs and the bytes sent to the host. -/
theorem execBridgeFault_keeps_bytes {s t : State} (h : execBridgeFault s = .next t) :
    t.rx = s.rx ∧ t.tx = s.tx ∧ hostOutput t.events = hostOutput s.events := by
  obtain ⟨-, rfl⟩ := execBridgeFault_next h
  exact ⟨rfl, rfl, by simp⟩

/-- An operation that neither reads RBR nor ends the device leaves a non-empty receive FIFO non-empty. -/
theorem RxEffect.keeps_input {i : Instr} {s t : State} (effect : RxEffect i s t)
    (op : i ≠ .loadRbr ∧ i ≠ .stop ∧ i ≠ .construct) (input : s.rx ≠ []) : t.rx ≠ [] := by
  obtain ⟨not_loadRbr, not_stop, not_construct⟩ := op
  cases effect with
  | kept same => rwa [same]
  | received b _ _ _ pushed => simp [pushed]
  | delivered b op => exact absurd op not_loadRbr
  | emptied op => exact (op.elim not_stop not_construct).elim

theorem step_keeps_input {s t : State} (h : step s = .next t)
    (op : ∀ i u, fetch s = .op i u → i ≠ .loadRbr ∧ i ≠ .stop ∧ i ≠ .construct) (input : s.rx ≠ []) : t.rx ≠ [] := by
  obtain ⟨i, u, fetched, done⟩ | ⟨u, fetched, done⟩ := step_next h
  · have same : u.rx = s.rx := fetch_op_frame fetched .rx (by simp)
    exact (exec_rx done).keeps_input (op i u fetched) (same ▸ input)
  · have same : u.rx = s.rx := fetch_bridgeFault_frame fetched .rx (by simp)
    obtain ⟨rx, -⟩ := execBridgeFault_keeps_bytes done
    rwa [rx, same]

/-- LSR shows buffered input (10_state.md R28). -/
theorem lsr_shows_input {s : State} (input : s.rx ≠ []) :
    s.lsr &&& s.cfg.codes.lsrDataAvailable = s.cfg.codes.lsrDataAvailable := by
  rw [State.lsr, (hasInput_iff s).mpr input, if_pos rfl]
  apply BitVec.eq_of_getLsbD_eq
  intro n hn
  simp only [BitVec.getLsbD_and, BitVec.getLsbD_or]
  cases s.cfg.codes.lsrDataAvailable.getLsbD n <;> simp

/-- Settles O44, by induction on the number of steps: each leaves input buffered, and LSR shows what is buffered at the
end. -/
theorem inputStaysUntilAnRbrLoad : Obligations.InputStaysUntilAnRbrLoad := by
  unfold Obligations.InputStaysUntilAnRbrLoad
  intro n s t ran input ops
  suffices kept : t.rx ≠ [] from ⟨kept, lsr_shows_input kept⟩
  induction n generalizing s with
  | zero => cases ran; exact input
  | succ n ih =>
    obtain ⟨u, next, rest⟩ := run_succ_next ran
    obtain ⟨now, later⟩ := (throughout_succ next).mp ops
    exact ih u rest (step_keeps_input next now input) later

/-! ## Bytes received and delivered -/

/-- A step that fetches HOST_RX appends its byte when not suspended. -/
theorem rxAppended_hostRx {s u : State} {b : Byte} (h : fetch s = .op (.hostRx b) u) :
    rxAppended s = if u.suspended then [] else [b] := by
  simp [rxAppended, h]

/-- A step that fetches anything but HOST_RX appends nothing. -/
theorem rxAppended_of_ne {s : State} (h : ∀ b u, fetch s ≠ .op (.hostRx b) u) : rxAppended s = [] := by
  unfold rxAppended
  split
  case h_1 fetched => exact absurd fetched (h _ _)
  case h_2 => rfl

/-- A LOAD of RBR delivers the byte it returns when it finds input. -/
theorem rbrDelivered_loadRbr {s t u : State} (fetched : fetch s = .op .loadRbr u) (next : step s = .next t) :
    rbrDelivered s = if u.hasInput then t.returned.toList else [] := by
  simp [rbrDelivered, fetched, next]

/-- A step that fetches anything but a LOAD of RBR delivers nothing. -/
theorem rbrDelivered_of_ne {s : State} (h : ∀ u, fetch s ≠ .op .loadRbr u) : rbrDelivered s = [] := by
  unfold rbrDelivered
  split
  case h_1 fetched _ => exact absurd fetched (h _)
  case h_2 => rfl

/-- One step conserves the received bytes: delivered, then still queued, are queued before, then appended. -/
theorem step_conserves_received {s t : State} (next : step s = .next t)
    (op : ∀ i u, fetch s = .op i u → keepsDevice i u) : rbrDelivered s ++ t.rx = s.rx ++ rxAppended s := by
  obtain ⟨i, u, fetched, done⟩ | ⟨u, fetched, done⟩ := step_next next
  · have same : u.rx = s.rx := fetch_op_frame fetched .rx (by simp)
    obtain ⟨not_stop, not_construct⟩ := op i u fetched
    cases exec_rx done with
    | kept kept discards stale =>
      have nothing_appended : rxAppended s = [] := by
        by_cases rx : ∃ b, i = .hostRx b
        · obtain ⟨b, rfl⟩ := rx
          simp [rxAppended_hostRx fetched, discards b rfl]
        · exact rxAppended_of_ne fun b v other => rx ⟨b, by rw [fetched] at other; injection other⟩
      have nothing_delivered : rbrDelivered s = [] := by
        by_cases rbr : i = .loadRbr
        · subst rbr
          simp [rbrDelivered_loadRbr fetched next, State.hasInput, stale rfl]
        · exact rbrDelivered_of_ne fun v other => rbr (by rw [fetched] at other; injection other)
      simp [nothing_appended, nothing_delivered, kept, same]
    | received b rx accepting _ pushed =>
      subst rx
      have nothing_delivered : rbrDelivered s = [] := rbrDelivered_of_ne (by simp [fetched])
      simp [rxAppended_hostRx fetched, accepting, nothing_delivered, pushed, same]
    | delivered b rbr popped returned =>
      subst rbr
      have nothing_appended : rxAppended s = [] := rxAppended_of_ne (by simp [fetched])
      have input : u.hasInput = true := (hasInput_iff u).mpr (by simp [popped])
      simp [rbrDelivered_loadRbr fetched next, input, returned, nothing_appended, ← same, popped]
    | emptied ends => exact (ends.elim not_stop not_construct).elim
  · have same : u.rx = s.rx := fetch_bridgeFault_frame fetched .rx (by simp)
    obtain ⟨rx, -⟩ := execBridgeFault_keeps_bytes done
    have nothing_appended : rxAppended s = [] := rxAppended_of_ne (by simp [fetched])
    have nothing_delivered : rbrDelivered s = [] := rbrDelivered_of_ne (by simp [fetched])
    simp [nothing_appended, nothing_delivered, rx, same]

/-- Settles O53, by induction on the number of steps: each conserves the received bytes. -/
theorem receivedBytesComeBackInOrder : Obligations.ReceivedBytesComeBackInOrder := by
  unfold Obligations.ReceivedBytesComeBackInOrder
  intro n s t ran ops
  induction n generalizing s with
  | zero => cases ran; simp [along]
  | succ n ih =>
    obtain ⟨u, next, rest⟩ := run_succ_next ran
    obtain ⟨now, later⟩ := (throughout_succ next).mp ops
    rw [along_succ next, along_succ next, List.append_assoc, ih u rest later, ← List.append_assoc,
      step_conserves_received next now, List.append_assoc]

end Sys2Proof.Machine
end

section
/-! SUPPORT. The transmit FIFO over every run (20_memory.md R63): the bytes sent to the host, followed by those
queued, are the bytes stored to THR, in STORE order. -/

namespace Sys2Proof.Machine

/-- The bytes sent to the host so far, followed by those still queued. -/
def State.sentThenQueued (s : State) : List Byte := hostOutput s.events ++ s.tx

theorem thrStored_storeThr {s u : State} {v : Byte} (h : fetch s = .op (.storeThr v) u) : thrStored s = [v] := by
  simp [thrStored, h]

theorem thrStored_of_ne {s : State} (h : ∀ v u, fetch s ≠ .op (.storeThr v) u) : thrStored s = [] := by
  unfold thrStored
  split
  case h_1 fetched => exact absurd fetched (h _ _)
  case h_2 => rfl

/-- An operation other than a STORE of THR adds nothing to the bytes sent and queued, and loses none of them while it
keeps the device and the host accepts what it is offered. -/
theorem TxEffect.sentThenQueued {i : Instr} {s t : State} (effect : TxEffect i s t) :
    (∃ v, i = .storeThr v ∧ t.sentThenQueued = s.sentThenQueued ++ [v]) ∨
      (∀ v, i ≠ .storeThr v) ∧ t.sentThenQueued.Sublist s.sentThenQueued ∧
        (keepsDevice i s → hostAccepts i s → t.sentThenQueued = s.sentThenQueued) := by
  unfold State.sentThenQueued
  cases effect with
  | kept same silent plain => exact .inr ⟨plain, by simp [same, silent], fun _ _ => by rw [same, silent]⟩
  | queued v op pushed silent => exact .inl ⟨v, op, by simp [pushed, silent]⟩
  | relayed b op popped sent =>
    refine .inr ⟨by simp [op], ?_, fun _ accepts => by simp [sent, popped, accepts op]⟩
    rw [sent, popped]
    cases s.draw.ok <;> simp
  | emptied op empty n sent =>
    refine .inr ⟨by rintro v rfl; simp at op, ?_, fun keeps => absurd op (by simpa [keepsDevice] using keeps)⟩
    rw [sent, empty, List.append_nil]
    exact (List.take_sublist n s.tx).append_left _

/-- What one step does to the bytes sent and queued: it adds the byte stored to THR and nothing else, and loses none
while it keeps the device and the host accepts what it is offered. -/
theorem step_sentThenQueued {s t : State} (next : step s = .next t) :
    t.sentThenQueued.Sublist (s.sentThenQueued ++ thrStored s) ∧
      ((∀ i u, fetch s = .op i u → keepsDevice i u) → (∀ i u, fetch s = .op i u → hostAccepts i u) →
        t.sentThenQueued = s.sentThenQueued ++ thrStored s) := by
  obtain ⟨i, u, fetched, done⟩ | ⟨u, fetched, done⟩ := step_next next
  · have same_tx : u.tx = s.tx := fetch_op_frame fetched .tx (by simp)
    have same_events : u.events = s.events := fetch_op_frame fetched .events (by simp)
    have same : s.sentThenQueued = u.sentThenQueued := by simp [State.sentThenQueued, same_tx, same_events]
    rw [same]
    obtain ⟨v, rfl, added⟩ | ⟨plain, sub, kept⟩ := (exec_tx done).sentThenQueued
    · simp [added, thrStored_storeThr fetched]
    · have nothing_stored : thrStored s = [] :=
        thrStored_of_ne fun v w other => plain v (by rw [fetched] at other; injection other)
      rw [nothing_stored, List.append_nil]
      exact ⟨sub, fun keeps accepts => kept (keeps i u fetched) (accepts i u fetched)⟩
  · have same_tx : u.tx = s.tx := fetch_bridgeFault_frame fetched .tx (by simp)
    have same_events : u.events = s.events := fetch_bridgeFault_frame fetched .events (by simp)
    obtain ⟨-, tx, sent⟩ := execBridgeFault_keeps_bytes done
    have nothing_stored : thrStored s = [] := thrStored_of_ne (by simp [fetched])
    simp [State.sentThenQueued, nothing_stored, tx, sent, same_tx, same_events]

/-- Settles O54, by induction on the number of steps: each adds the byte stored to THR, and loses none. -/
theorem storedBytesReachTheHostInOrder : Obligations.StoredBytesReachTheHostInOrder := by
  unfold Obligations.StoredBytesReachTheHostInOrder
  intro n s t ran keeps accepts
  change t.sentThenQueued = s.sentThenQueued ++ along thrStored n s
  induction n generalizing s with
  | zero => cases ran; simp [along]
  | succ n ih =>
    obtain ⟨u, next, rest⟩ := run_succ_next ran
    obtain ⟨keeps_now, keeps_later⟩ := (throughout_succ next).mp keeps
    obtain ⟨accepts_now, accepts_later⟩ := (throughout_succ next).mp accepts
    obtain ⟨-, conserved⟩ := step_sentThenQueued next
    rw [ih u rest keeps_later accepts_later, conserved keeps_now accepts_now, along_succ next, List.append_assoc]

/-- Settles O55, by induction on the number of steps: each adds nothing but the byte stored to THR. -/
theorem hostOutputNeverReordersOrDuplicates : Obligations.HostOutputNeverReordersOrDuplicates := by
  unfold Obligations.HostOutputNeverReordersOrDuplicates
  intro n s t ran
  change t.sentThenQueued.Sublist (s.sentThenQueued ++ along thrStored n s)
  induction n generalizing s with
  | zero => cases ran; simp [along]
  | succ n ih =>
    obtain ⟨u, next, rest⟩ := run_succ_next ran
    obtain ⟨sub, -⟩ := step_sentThenQueued next
    rw [along_succ next, ← List.append_assoc]
    exact (ih u rest).trans (sub.append_right _)

end Sys2Proof.Machine
end

section
/-! SUPPORT. Who touches the FIFOs (10_state.md R32, R33). -/

namespace Sys2Proof.Machine

/-- Settles O42: what an operation does to the receive FIFO, where that is a change. -/
theorem whoTouchesTheReceiveFifo : Obligations.WhoTouchesTheReceiveFifo := by
  unfold Obligations.WhoTouchesTheReceiveFifo
  intro i s t done changed
  cases exec_rx done with
  | kept same => exact absurd same changed
  | received b op _ _ pushed => exact .inl ⟨b, op, by rw [op, Instr.agent], pushed⟩
  | delivered b op popped returned => exact .inr (.inl ⟨op, b, popped, returned⟩)
  | emptied op empty => exact .inr (.inr ⟨op, empty⟩)

/-- Settles O43: what an operation does to the transmit FIFO, where that is a change. -/
theorem whoTouchesTheTransmitFifo : Obligations.WhoTouchesTheTransmitFifo := by
  unfold Obligations.WhoTouchesTheTransmitFifo
  intro i s t done changed
  cases exec_tx done with
  | kept same => exact absurd same changed
  | queued v op pushed => exact .inl ⟨v, op, pushed⟩
  | relayed b op popped => exact .inr (.inl ⟨op, by rw [op, Instr.agent], b, popped⟩)
  | emptied op empty => exact .inr (.inr ⟨op, empty⟩)

end Sys2Proof.Machine
end

section
/-! SUPPORT. The lifecycle precondition (30_encoding.md R93): which operations run in which life, and which stop they
meet elsewhere. -/

namespace Sys2Proof.Machine

/-- Every operation but CONSTRUCT stands behind the lifecycle precondition. -/
theorem exec_eq_whenRunning {i : Instr} (op : i ≠ .construct) (s : State) : ∃ body, exec i s = whenRunning s body := by
  cases i with
  | construct => exact absurd rfl op
  | _ =>
    simp only [exec, execLoadRbr, execLoadDll, execLoadIer, execLoadDlm, execLoadIir, execLoadLcr, execLoadMcr,
      execLoadLsr, execLoadMsr, execLoadScr, execStoreThr, execStoreDll, execStoreIer, execStoreDlm, execStoreFcr,
      execStoreLcr, execStoreMcr, execStoreLsr, execStoreMsr, execStoreScr, execService, execHostRx, execHostTxPop,
      execSuspend, execResume, execStop, loadReg, storeReg, storeDiscarded]
    exact ⟨_, rfl⟩

theorem exec_aborted {s : State} (aborted : s.life = .aborted) (i : Instr) : exec i s = .fault .deviceAborted := by
  by_cases op : i = .construct
  · simp [op, exec, execConstruct, aborted]
  · obtain ⟨body, eq⟩ := exec_eq_whenRunning op s
    rw [eq, whenRunning_aborted aborted]

theorem exec_stopped {s : State} (stopped : s.life = .stopped) {i : Instr} (op : i ≠ .construct) :
    exec i s = .refused .deviceStopped := by
  obtain ⟨body, eq⟩ := exec_eq_whenRunning op s
  rw [eq, whenRunning_stopped stopped]

theorem exec_unconstructed {s : State} (unconstructed : s.life = .unconstructed) {i : Instr} (op : i ≠ .construct) :
    exec i s = .refused .notConstructed := by
  obtain ⟨body, eq⟩ := exec_eq_whenRunning op s
  rw [eq, whenRunning_unconstructed unconstructed]

/-- CONSTRUCT on a dead device is the construction. -/
theorem exec_construct_dead {s : State} (dead : s.life = .unconstructed ∨ s.life = .stopped) :
    exec .construct s = construct s := by
  obtain life | life := dead <;> simp [exec, execConstruct, life]

theorem exec_construct_running {s : State} (running : s.life = .running) :
    exec .construct s = .refused .alreadyConstructed := by
  simp [exec, execConstruct, running]

/-- Settles O31: every operation is the fault deviceAborted, and what the bridge's fault step needs is `Running`. -/
theorem abortedIsFinal : Obligations.AbortedIsFinal := by
  unfold Obligations.AbortedIsFinal
  refine fun s aborted => ⟨exec_aborted aborted, fun t next => ?_⟩
  obtain ⟨i, u, fetched, done⟩ | ⟨u, fetched, done⟩ := step_next next
  · have same : u.life = s.life := fetch_op_frame fetched .life (by simp)
    exact exec_next_ne_aborted done (same.trans aborted)
  · have same : u.life = s.life := fetch_bridgeFault_frame fetched .life (by simp)
    obtain ⟨running, -⟩ := execBridgeFault_next done
    cases (same.trans aborted).symm.trans running

/-- Settles O32: the lifecycle precondition refuses every operation but CONSTRUCT, and the bridge's fault step. -/
theorem onlyConstructRunsOnADeadDevice : Obligations.OnlyConstructRunsOnADeadDevice := by
  unfold Obligations.OnlyConstructRunsOnADeadDevice
  refine fun s => ⟨fun stopped => ⟨fun i op => exec_stopped stopped op, ?_⟩,
    fun unconstructed => ⟨fun i op => exec_unconstructed unconstructed op, ?_⟩⟩
  · exact whenRunning_stopped stopped _
  · exact whenRunning_unconstructed unconstructed _

/-- On a running device every operation completes but CONSTRUCT, HOST_RX into a full FIFO while not suspended, and
HOST_TX_POP with nothing queued. -/
theorem exec_completes {s : State} (running : s.life = .running) {i : Instr} (not_construct : i ≠ .construct)
    (room : ∀ b, i = .hostRx b → s.suspended = true ∨ s.rxFull = false) (queued : i = .hostTxPop → s.tx ≠ []) :
    ∃ t, exec i s = .next t := by
  obtain ⟨dlab, select⟩ := i.exists_select_request
  generalize i.request = r at select
  subst select
  cases r with
  | load off =>
    obtain ⟨t, _, done, _⟩ := exec_select_load_returns_byte running dlab off
    exact ⟨t, done⟩
  | store off v =>
    obtain ⟨t, done, _⟩ := exec_select_store_returns_none running dlab off v
    exact ⟨t, done⟩
  | service => exact ⟨_, exec_service_running running⟩
  | hostRx b =>
    obtain ⟨-, done⟩ | ⟨accepting, full, -⟩ | ⟨-, -, done⟩ := execHostRx_cases running b
    · exact ⟨_, done⟩
    · simpa [accepting, full] using room b rfl
    · exact ⟨_, done⟩
  | hostTxPop =>
    obtain ⟨empty, -⟩ | ⟨_, _, -, done⟩ := execHostTxPop_cases running
    · exact absurd empty (queued rfl)
    · exact ⟨_, done⟩
  | suspend => exact ⟨_, exec_suspend_running running⟩
  | resume => exact ⟨_, exec_resume_running running⟩
  | construct => exact absurd rfl not_construct
  | stop => exact ⟨_, exec_stop_running running⟩

theorem exec_hostRx_full {s : State} (running : s.life = .running) (accepting : s.suspended = false)
    (full : s.rxFull = true) (b : Byte) : exec (.hostRx b) s = .refused .rxFull := by
  simp [exec, execHostRx, whenRunning_of_running running, accepting, full]

theorem exec_hostTxPop_empty {s : State} (running : s.life = .running) (empty : s.tx = []) :
    exec .hostTxPop s = .refused .txEmpty := by
  simp [exec, execHostTxPop, whenRunning_of_running running, empty]

/-- Settles O33: the three exceptions are refused, and every other operation completes. -/
theorem whatCompletesInRunning : Obligations.WhatCompletesInRunning := by
  unfold Obligations.WhatCompletesInRunning
  intro i s running
  constructor
  · rintro ⟨t, done⟩ (rfl | ⟨b, depth, rfl, accepting, rxDepth, full⟩ | ⟨rfl, empty⟩)
    · cases (exec_construct_running running).symm.trans done
    · have rxFull := (rxFull_iff s).mpr ⟨depth, rxDepth, full⟩
      cases (exec_hostRx_full running accepting rxFull b).symm.trans done
    · cases (exec_hostTxPop_empty running empty).symm.trans done
  · intro enabled
    simp only [not_or] at enabled
    obtain ⟨not_construct, not_full, not_empty⟩ := enabled
    refine exec_completes running not_construct (fun b op => ?_) (fun op empty => not_empty ⟨op, empty⟩)
    by_contra blocked
    simp only [not_or, Bool.not_eq_true, Bool.not_eq_false] at blocked
    obtain ⟨accepting, rxFull⟩ := blocked
    obtain ⟨depth, rxDepth, full⟩ := (rxFull_iff s).mp rxFull
    exact not_full ⟨b, depth, op, accepting, rxDepth, full⟩

/-! ## CONSTRUCT -/

/-- What a legal configuration is (00_scope.md R5). -/
theorem Config.wf_iff (c : Config) :
    c.wf = true ↔ c.rxDepth ≠ some 0 ∧ c.codes.ierErbfi = 0x01 ∧ c.codes.lcrDlab = 0x80 ∧
      c.codes.ierMask = c.codes.ierErbfi ||| c.codes.ierEtbei ||| c.codes.ierElsi ||| c.codes.ierEdssi ∧
      c.codes.ierMask &&& 0xF0 = 0 := by
  have depth : c.depthWf = true ↔ c.rxDepth ≠ some 0 := by
    unfold Config.depthWf
    split <;> simp_all [Nat.one_le_iff_ne_zero]
  simp only [Config.wf, Codes.wf, Bool.and_eq_true, beq_iff_eq, depth, and_assoc]

/-- Settles O56: the operand's check is the list of conditions, and it comes before the fatal failure. -/
theorem constructTakesLegalConfigurationsAlone : Obligations.ConstructTakesLegalConfigurationsAlone := by
  unfold Obligations.ConstructTakesLegalConfigurationsAlone
  intro s dead
  rw [exec_construct_dead dead]
  refine ⟨fun legal => ?_, fun illegal => ?_⟩
  · obtain ⟨refused, -⟩ | ⟨-, -, aborts⟩ | ⟨-, -, made⟩ := construct_cases s
    · simp [(Config.wf_iff _).mpr legal] at refused
    · exact ⟨_, aborts⟩
    · exact ⟨_, made⟩
  · have refused : s.draw.config.wf ≠ true := fun wf => illegal ((Config.wf_iff _).mp wf)
    simp [construct, refused]

/-- Settles O29: the row is kind 7, and with a legal operand and no fatal failure the construction makes the device. -/
theorem constructMakesANewDevice : Obligations.ConstructMakesANewDevice := by
  unfold Obligations.ConstructMakesANewDevice
  refine ⟨fun k fits => decodeKey_of_kind_seven (k.kind_of_row 0x38 (by decide) fits), fun s dead legal healthy => ?_⟩
  refine ⟨s.constructed.setReturned none, ?_, rfl, rfl, rfl, rfl, rfl, rfl, rfl, rfl, rfl, rfl, rfl, rfl, rfl, rfl, rfl,
    rfl, rfl⟩
  simp [exec_construct_dead dead, construct, legal, healthy, finish_next]

/-- Raising DeviceAbort changes the history, the life and the returned byte alone. -/
theorem raiseDeviceAbort_frame (reason : AbortReason) (s : State) :
    Frame [.events, .life, .returned] s (((s.emitAll [.abort reason]).setLife .aborted).setReturned none) := by
  intro p hp
  cases p with
  | events => simp at hp
  | life => simp at hp
  | returned => simp at hp
  | _ => rfl

/-- Taking the first input off the schedule changes the schedule alone. -/
theorem setSchedule_frame (rest : List Input) (s : State) : Frame [.schedule] s (s.setSchedule rest) := by
  intro p hp
  cases p with
  | schedule => simp at hp
  | _ => rfl

/-- Settles O30: both fatal failures raise DeviceAbort, each with its reason. -/
theorem fatalFailureAborts : Obligations.FatalFailureAborts := by
  unfold Obligations.FatalFailureAborts
  constructor
  · intro s dead legal fatal
    have aborts : exec .construct s = raiseDeviceAbort .startup s := by
      simp [exec_construct_dead dead, construct, legal, fatal]
    exact ⟨_, aborts, rfl, rfl, rfl, raiseDeviceAbort_frame .startup s⟩
  · intro s rest running schedule
    have aborts : step s = raiseDeviceAbort .wait (s.setSchedule rest) := by
      simp [step, fetch_bridgeFault schedule, execBridgeFault, whenRunning, running]
    have taken := setSchedule_frame rest s
    have aborted := raiseDeviceAbort_frame .wait (s.setSchedule rest)
    exact ⟨_, aborts, rfl, rfl, rfl, rfl, (taken.mono (by simp)).trans (aborted.mono (by simp))⟩

end Sys2Proof.Machine
end

section
/-! SUPPORT. What has no step before the device's life is looked at: reserved kinds (30_encoding.md R94), and bus
accesses outside the window or of another width (20_memory.md R52, R54). -/

namespace Sys2Proof

/-- The reserved kinds, and they alone, spell no request (30_encoding.md R94). -/
theorem parseRequest_eq_none_iff (w : RequestWord) : parseRequest w = none ↔ 9 ≤ w.kind.toNat := by
  unfold parseRequest
  split <;> simp_all
  omega

/-- The decoder rejects the reserved kinds, each by its name. -/
theorem decode_reservedKind_iff {w : RequestWord} {dlab : Bool} {k : Kind} :
    decode w dlab = .reservedKind k ↔ w.kind = k ∧ 9 ≤ k.toNat := by
  have reserved := parseRequest_eq_none_iff w
  unfold decode
  split
  case h_1 r parsed =>
    simp only [parsed, reduceCtorEq, false_iff] at reserved
    simpa using fun kind : w.kind = k => kind ▸ Nat.not_le.mp reserved
  case h_2 unparsed =>
    simpa using fun kind : w.kind = k => kind ▸ reserved.mp unparsed

end Sys2Proof
end

section
/-! SUPPORT. The step presented with an input that has none. -/

namespace Sys2Proof.Machine

/-- No operation is refused as a reserved kind: what it meets is the life, a FIFO, or an illegal operand. -/
theorem exec_ne_reservedKind (i : Instr) (s : State) (k : Kind) : exec i s ≠ .refused (.reservedKind k) := by
  intro refused
  by_cases op : i = .construct
  · subst op
    cases life : s.life with
    | aborted => cases (exec_aborted life _).symm.trans refused
    | running => cases (exec_construct_running life).symm.trans refused
    | _ =>
      rw [exec_construct_dead (by simp [life])] at refused
      obtain ⟨-, made⟩ | ⟨-, -, made⟩ | ⟨-, -, made⟩ := construct_cases s <;> cases made.symm.trans refused
  · cases life : s.life with
    | aborted => cases (exec_aborted life i).symm.trans refused
    | stopped => cases (exec_stopped life op).symm.trans refused
    | unconstructed => cases (exec_unconstructed life op).symm.trans refused
    | running =>
      cases i with
      | hostRx b =>
        obtain ⟨-, done⟩ | ⟨-, -, done⟩ | ⟨-, -, done⟩ := execHostRx_cases life b <;> cases done.symm.trans refused
      | hostTxPop =>
        obtain ⟨-, done⟩ | ⟨_, _, -, done⟩ := execHostTxPop_cases life <;> cases done.symm.trans refused
      | _ =>
        obtain ⟨t, done⟩ := exec_completes life op (by simp) (by simp)
        cases done.symm.trans refused

theorem execBridgeFault_ne_reservedKind (s : State) (k : Kind) : execBridgeFault s ≠ .refused (.reservedKind k) := by
  unfold execBridgeFault whenRunning
  split <;> simp [raiseDeviceAbort_next]

/-- Everything that can keep a bus access from the block. -/
theorem busRequest_error {c : Config} {a : BusAccess} {e : Refusal} (h : busRequest c a = .error e) :
    (∃ size, e = .accessWidth size) ∨ ∃ addr, e = .outsideWindow addr := by
  unfold busRequest at h
  repeat' split at h
  all_goals cases h
  all_goals simp

theorem fetchWord_reservedKind_iff {w : RequestWord} {s : State} {k : Kind} :
    fetchWord w s = .refused (.reservedKind k) ↔ w.kind = k ∧ 9 ≤ k.toNat := by
  rw [← @decode_reservedKind_iff w s.dlab k]
  unfold fetchWord
  split <;> simp_all

/-- An input is refused as a reserved kind exactly when it is a request word of that kind. -/
theorem fetch_reservedKind_iff {s : State} {k : Kind} :
    fetch s = .refused (.reservedKind k) ↔
      ∃ w d rest, s.schedule = .request w d :: rest ∧ w.kind = k ∧ 9 ≤ k.toNat := by
  unfold fetch
  split
  case h_1 empty => simp [empty]
  case h_2 input rest schedule =>
    cases input with
    | request w d =>
      rw [fetchInput, fetchWord_reservedKind_iff, schedule]
      constructor
      · rintro ⟨kind, reserved⟩
        exact ⟨w, d, rest, rfl, kind, reserved⟩
      · rintro ⟨_, _, _, presented, kind, reserved⟩
        cases presented
        exact ⟨kind, reserved⟩
    | bus a =>
      cases arrives : busRequest s.cfg a with
      | ok r => simp [schedule, fetchInput, arrives, fetchWord]
      | error e =>
        obtain ⟨_, rfl⟩ | ⟨_, rfl⟩ := busRequest_error arrives <;> simp [schedule, fetchInput, arrives]
    | bridgeFault => simp [schedule, fetchInput]

/-- A step is refused as a reserved kind exactly when its input is: no operation is. -/
theorem step_reservedKind_iff {s : State} {k : Kind} :
    step s = .refused (.reservedKind k) ↔ fetch s = .refused (.reservedKind k) := by
  unfold step
  split <;> simp_all [exec_ne_reservedKind, execBridgeFault_ne_reservedKind]

/-- Settles O4: the decoder rejects the reserved kinds alone, and a step is refused as one when it is presented with
one. -/
theorem reservedKindsAreRefused : Obligations.ReservedKindsAreRefused := by
  unfold Obligations.ReservedKindsAreRefused
  refine ⟨fun w dlab => ?_, fun s k => step_reservedKind_iff.trans fetch_reservedKind_iff⟩
  rw [decode_reservedKind_iff, and_iff_right rfl]

/-- A bus access that never reaches the block is refused for the reason it does not. -/
theorem step_bus_error {s : State} {a : BusAccess} {rest : List Input} {e : Refusal} (h : s.schedule = .bus a :: rest)
    (never : busRequest s.cfg a = .error e) : step s = .refused e := by
  simp [step, fetch, h, fetchInput, never]

theorem busRequest_read_wide {c : Config} {addr size : Nat} (wide : size ≠ 1) :
    busRequest c (.read addr size) = .error (.accessWidth size) := by
  simp [busRequest, wide]

theorem busRequest_write_wide {c : Config} {addr : Nat} {bytes : List Byte} (wide : bytes.length ≠ 1) :
    busRequest c (.write addr bytes) = .error (.accessWidth bytes.length) := by
  match bytes, wide with
  | [], _ => rfl
  | [_], wide => exact absurd rfl wide
  | _ :: _ :: _, _ => rfl

/-- An address below `UART_BASE` or 8 and more above it has no window offset (20_memory.md R52). -/
theorem windowOffset_outside {c : Config} {addr : Nat} (outside : addr < c.uartBase ∨ c.uartBase + 8 ≤ addr) :
    windowOffset c addr = none := by
  apply windowOffset_eq_none
  simp only [Config.inWindow, Bool.and_eq_false_iff, decide_eq_false_iff_not]
  omega

/-- Settles O9: the width is checked first, then the window. -/
theorem accessesThatNeverReachTheBlockAreRefused : Obligations.AccessesThatNeverReachTheBlockAreRefused := by
  unfold Obligations.AccessesThatNeverReachTheBlockAreRefused
  intro s addr size bytes rest
  refine ⟨fun schedule wide => ?_, fun schedule wide => ?_, fun schedule one outside => ?_,
    fun schedule one outside => ?_⟩
  · exact step_bus_error schedule (busRequest_read_wide wide)
  · exact step_bus_error schedule (busRequest_write_wide wide)
  · refine step_bus_error schedule ?_
    simp [busRequest, one, windowOffset_outside outside]
  · obtain ⟨v, rfl⟩ := List.length_eq_one_iff.mp one
    refine step_bus_error schedule ?_
    simp [busRequest, windowOffset_outside outside]

end Sys2Proof.Machine
end

section
/-! SUPPORT. The LOADs of the derived registers (40_loads.md R104, R107, R108) and the numbers of their codes. -/

namespace Sys2Proof.Machine

theorem iir_eq (s : State) : s.iir = if s.rx = [] then s.cfg.codes.iirTxReady else s.cfg.codes.iirRxReady := by
  cases rx : s.rx <;> simp [State.iir, State.hasInput, rx]

theorem lsr_eq (s : State) :
    s.lsr = if s.rx = [] then s.cfg.codes.lsrThrEmpty
      else s.cfg.codes.lsrThrEmpty ||| s.cfg.codes.lsrDataAvailable := by
  cases rx : s.rx <;> simp [State.lsr, State.hasInput, rx]

/-- Settles O13: the LOAD returns IIR, which reads has_input and the codes alone. -/
theorem loadIirReportsTheReceiveFifo : Obligations.LoadIirReportsTheReceiveFifo := by
  unfold Obligations.LoadIirReportsTheReceiveFifo
  refine ⟨fun k row => decodeKey_of_row row nofun, fun s running => ?_⟩
  exact ⟨_, s.iir, exec_loadIir_running running, rfl, iir_eq s, rfl, emitAll_setReturned_frame _ _ s⟩

/-- Settles O14: the LOAD returns LSR, which reads has_input and the codes alone. -/
theorem loadLsrReportsThrEmptyAndInput : Obligations.LoadLsrReportsThrEmptyAndInput := by
  unfold Obligations.LoadLsrReportsThrEmptyAndInput
  refine ⟨fun k row => decodeKey_of_row row nofun, fun s running => ?_⟩
  exact ⟨_, s.lsr, exec_loadLsr_running running, rfl, lsr_eq s, rfl, emitAll_setReturned_frame _ _ s⟩

/-- Settles O15: the LOAD returns MSR, which reads the codes alone. -/
theorem loadMsrReportsAConstant : Obligations.LoadMsrReportsAConstant := by
  unfold Obligations.LoadMsrReportsAConstant
  refine ⟨fun k row => decodeKey_of_row row nofun, fun s running => ?_⟩
  exact ⟨_, s.msr, exec_loadMsr_running running, rfl, rfl, rfl, emitAll_setReturned_frame _ _ s⟩

/-- Settles O16: the numbers are the decided codes, put into IIR, LSR and MSR. -/
theorem decidedStatusCodes : Obligations.DecidedStatusCodes := by
  unfold Obligations.DecidedStatusCodes
  intro s decided
  rw [iir_eq, lsr_eq, State.msr, decided]
  refine ⟨fun input => ?_, fun empty => ?_, by decide⟩
  · rw [if_neg input, if_neg input]
    decide
  · rw [if_pos empty, if_pos empty]
    decide

/-! ## Every LOAD but that of RBR (20_memory.md R56) -/

/-- The interrupt condition reads IER, has_input and the codes alone (42_irq_service.md R143). -/
theorem Frame.irqCond_eq {w : List Part} {s t : State} (frame : Frame w s t) (ier : .reg .ier ∉ w) (rx : .rx ∉ w)
    (cfg : .cfg ∉ w) : t.irqCond = s.irqCond := by
  have same_ier : t.read .ier = s.read .ier := frame (.reg .ier) ier
  have same_cfg : t.cfg = s.cfg := frame .cfg cfg
  rw [State.irqCond, State.irqCond, same_ier, same_cfg, frame.hasInput_eq rx]

/-- Settles O46: the effect of a LOAD other than RBR's is a Trace record and a returned byte. -/
theorem onlyTheRbrLoadHasASideEffect : Obligations.OnlyTheRbrLoadHasASideEffect := by
  unfold Obligations.OnlyTheRbrLoadHasASideEffect
  intro s t dlab off done plain
  have request := (Request.load off).request_select dlab
  generalize (Request.load off).select dlab = i at done plain request
  obtain ⟨-, effect⟩ := exec_effect done (by rintro rfl; cases request)
  cases effect with
  | load _ _ at_off v =>
    have frame := emitAll_setReturned_frame (traceEvents s.cfg .load at_off v) (some v) s
    exact ⟨frame, by simp, frame.iir_eq (by simp) (by simp), frame.lsr_eq (by simp) (by simp),
      frame.irqCond_eq (by simp) (by simp) (by simp)⟩
  | loadRbr => exact absurd rfl plain
  | store _ _ _ _ _ _ _ _ isStore => cases (store_request isStore).symm.trans request
  | discard _ _ _ _ _ isStore => cases (store_request isStore).symm.trans request
  | _ => cases request

end Sys2Proof.Machine
end

section
/-! SUPPORT. The STORE of IER (41_stores.md R122), and a STORE repeated (20_memory.md R57). -/

namespace Sys2Proof.Machine

/-- `IER_MASK` keeps each of the four enables (00_scope.md R5). -/
theorem ierMask_and_enable {c : Config} (legal : c.wf = true) {enable : Byte}
    (listed : enable ∈ [c.codes.ierErbfi, c.codes.ierEtbei, c.codes.ierElsi, c.codes.ierEdssi]) :
    c.codes.ierMask &&& enable = enable := by
  obtain ⟨-, -, mask, -⟩ := Config.wf_codes legal
  rw [mask]
  apply BitVec.eq_of_getLsbD_eq
  intro n hn
  simp only [List.mem_cons, List.not_mem_nil, or_false] at listed
  simp only [BitVec.getLsbD_and, BitVec.getLsbD_or]
  obtain rfl | rfl | rfl | rfl := listed <;> simp +contextual [Bool.and_eq_right_iff_imp]

/-- The decided `IER_MASK` is the low 4 bits. -/
theorem decided_ierMask_bit (n : Nat) : Codes.decided.ierMask.getLsbD n = decide (n < 4) := by
  by_cases in_byte : n < 8
  · have low : ∀ m < 8, Codes.decided.ierMask.getLsbD m = decide (m < 4) := by decide
    exact low n in_byte
  · rw [BitVec.getLsbD_of_ge _ _ (by omega), decide_eq_false (by omega)]

/-- Settles O19: the byte stored is `v & IER_MASK`, which a legal configuration makes the four enables of `v`. -/
theorem storeIerMasksTheByte : Obligations.StoreIerMasksTheByte := by
  unfold Obligations.StoreIerMasksTheByte
  refine ⟨fun k row => decodeKey_of_row row fun _ operand => (Option.some.inj operand).symm, fun s v running => ?_⟩
  obtain ⟨t, done, stored, returned, events, frame⟩ := storeReg_stores running .ier 1 (maskIer s.cfg.codes v) v
  rw [maskIer] at stored
  refine ⟨t, done, returned, stored, fun legal => ⟨?_, fun enable listed => ?_⟩, fun decided n => ?_, events, frame⟩
  · rw [stored, ← maskIer, maskIer_reserved legal]
  · rw [stored, BitVec.and_assoc, ierMask_and_enable legal listed]
  · rw [stored, decided, BitVec.getLsbD_and, decided_ierMask_bit, Bool.and_comm]

/-- A STORE other than that of THR is the STORE of a register, with a byte the codes and the data byte decide, or a
discarded STORE. -/
theorem exec_plainStore {i : Instr} {off : Offset} {v : Byte} (isStore : i.request = .store off v)
    (plain : i ≠ .storeThr v) (c : Codes) :
    (∃ r stored, ∀ s : State, s.cfg.codes = c → exec i s = storeReg r off stored v s) ∨
      ∀ s, exec i s = storeDiscarded off v s := by
  cases i <;> cases isStore
  case storeThr => exact absurd rfl plain
  case storeDll => exact .inl ⟨.dll, v, fun _ _ => rfl⟩
  case storeIer => exact .inl ⟨.ier, maskIer c v, fun _ codes => by rw [← codes]; rfl⟩
  case storeDlm => exact .inl ⟨.dlm, v, fun _ _ => rfl⟩
  case storeLcr => exact .inl ⟨.lcr, v, fun _ _ => rfl⟩
  case storeMcr => exact .inl ⟨.mcr, v, fun _ _ => rfl⟩
  case storeScr => exact .inl ⟨.scr, v, fun _ _ => rfl⟩
  case storeFcr => exact .inr fun _ => rfl
  case storeLsr => exact .inr fun _ => rfl
  case storeMsr => exact .inr fun _ => rfl

/-- Ending a STORE on a state that returned nothing changes the history alone. -/
theorem emitAll_frame_of_returned_none (es : List Event) {s : State} (returned : s.returned = none) :
    Frame [.events] s ((s.emitAll es).setReturned none) := by
  intro p hp
  cases p with
  | events => simp at hp
  | returned => exact returned.symm
  | _ => rfl

/-- Writing back what a register holds changes nothing. -/
theorem write_read (r : Reg) (s : State) : s.write r (s.read r) = s := by
  cases r <;> rfl

/-- The STORE of a register, repeated, changes the history alone, by a Trace record. -/
theorem storeReg_again {s t : State} {r : Reg} {off : Offset} {stored v : Byte} (running : s.life = .running)
    (done : storeReg r off stored v s = .next t) :
    ∃ u, storeReg r off stored v t = .next u ∧ untraced u.events = untraced t.events ∧ Frame [.events] t u := by
  obtain ⟨t', done', read, returned, -, frame⟩ := storeReg_stores running r off stored v
  cases done.symm.trans done'
  have running' : t.life = .running := (frame .life (by simp)).trans running
  have same : t.write r stored = t := by rw [← read, write_read]
  refine ⟨_, storeReg_running running' r off stored v, ?_, ?_⟩
  · simp
  · rw [same]
    exact emitAll_frame_of_returned_none _ returned

/-- A discarded STORE, repeated, changes the history alone, by a Trace record. -/
theorem storeDiscarded_again {s t : State} {off : Offset} {v : Byte} (running : s.life = .running)
    (done : storeDiscarded off v s = .next t) :
    ∃ u, storeDiscarded off v t = .next u ∧ untraced u.events = untraced t.events ∧ Frame [.events] t u := by
  obtain ⟨t', done', returned, -, -, -, frame⟩ := storeDiscarded_changes_nothing running off v
  cases done.symm.trans done'
  have running' : t.life = .running := (frame .life (by simp)).trans running
  exact ⟨_, storeDiscarded_running running' off v, by simp, emitAll_frame_of_returned_none _ returned⟩

/-- A STORE of THR, repeated, pushes its byte once more; THR already holds it. -/
theorem storeThr_again {s t : State} {v : Byte} (running : s.life = .running) (done : exec (.storeThr v) s = .next t) :
    ∃ u, exec (.storeThr v) t = .next u ∧ untraced u.events = untraced t.events ∧ u.tx = s.tx ++ [v, v] ∧
      Frame [.tx, .events] t u := by
  cases done.symm.trans (exec_storeThr_running running v)
  refine ⟨_, exec_storeThr_running (by simpa using running) v, by simp, by simp, ?_⟩
  intro p hp
  cases p with
  | tx => simp at hp
  | events => simp at hp
  | reg r => by_cases thr : r = .thr <;> simp [Part.same, State.read_write, thr]
  | _ => rfl

/-- Settles O47: THR pushes once more; of the others each stores the same byte again, or discards it again. -/
theorem repeatedStoresAreIdempotentButThr : Obligations.RepeatedStoresAreIdempotentButThr := by
  unfold Obligations.RepeatedStoresAreIdempotentButThr
  intro s t dlab off v done
  have request := (Request.store off v).request_select dlab
  generalize (Request.store off v).select dlab = i at done request ⊢
  have running : s.life = .running := exec_next_running done (by rintro rfl; cases request)
  by_cases thr : i = .storeThr v
  · subst thr
    obtain ⟨u, again, untraced_same, pushed, frame⟩ := storeThr_again running done
    exact ⟨u, again, untraced_same, by rw [if_pos rfl]; exact ⟨pushed, frame⟩⟩
  · simp only [if_neg thr]
    obtain ⟨r, stored, is_store⟩ | is_discarded := exec_plainStore request thr s.cfg.codes
    · rw [is_store s rfl] at done
      have same_cfg : t.cfg = s.cfg := by
        cases done.symm.trans (storeReg_running running r off stored v)
        rfl
      rw [is_store t (by rw [same_cfg])]
      exact storeReg_again running done
    · rw [is_discarded] at done ⊢
      exact storeDiscarded_again running done

end Sys2Proof.Machine
end

section
/-! SUPPORT. The host port (43_host_port.md R150 to R152, R156). -/

namespace Sys2Proof.Machine

/-- Settles O22: the row is kind 3, and HOST_RX, not suspended and with room, pushes its byte. -/
theorem hostRxAppendsTheByte : Obligations.HostRxAppendsTheByte := by
  unfold Obligations.HostRxAppendsTheByte
  refine ⟨fun k row => decodeKey_of_row row fun _ operand => (Option.some.inj operand).symm,
    fun s b running accepting room => ?_⟩
  have not_full : s.rxFull ≠ true := fun full => by
    obtain ⟨depth, rxDepth, reached⟩ := (rxFull_iff s).mp full
    exact absurd (room depth rxDepth) (by omega)
  obtain ⟨suspended, -⟩ | ⟨-, full, -⟩ | ⟨-, -, done⟩ := execHostRx_cases running b
  · simp [accepting] at suspended
  · exact absurd full not_full
  · refine ⟨_, done, rfl, rfl, fun p hp => ?_⟩
    cases p with
    | rx => simp at hp
    | returned => simp at hp
    | _ => rfl

/-- Settles O23: HOST_RX, not suspended and into a full FIFO, is refused. -/
theorem hostRxIntoAFullFifoHasNoStep : Obligations.HostRxIntoAFullFifoHasNoStep := by
  unfold Obligations.HostRxIntoAFullFifoHasNoStep
  intro s b depth running accepting rxDepth full
  exact exec_hostRx_full running accepting ((rxFull_iff s).mpr ⟨depth, rxDepth, full⟩) b

/-- Settles O24: HOST_RX looks at the flag before it looks at the FIFO. -/
theorem hostRxWhileSuspendedDiscards : Obligations.HostRxWhileSuspendedDiscards := by
  unfold Obligations.HostRxWhileSuspendedDiscards
  intro s b running suspended
  obtain ⟨-, done⟩ | ⟨accepting, -⟩ | ⟨accepting, -⟩ := execHostRx_cases running b
  · refine ⟨_, done, rfl, fun p hp => ?_⟩
    cases p with
    | returned => simp at hp
    | _ => rfl
  · simp [suspended] at accepting
  · simp [suspended] at accepting

/-- Settles O25: the row is kind 4, and HOST_TX_POP has a step exactly when a byte is queued. -/
theorem hostTxPopRelaysTheOldestByte : Obligations.HostTxPopRelaysTheOldestByte := by
  unfold Obligations.HostTxPopRelaysTheOldestByte
  refine ⟨fun k row => decodeKey_of_row row nofun, fun s running => ⟨fun b rest queued => ?_, ?_⟩⟩
  · obtain ⟨empty, -⟩ | ⟨b', rest', queued', done⟩ := execHostTxPop_cases running
    · cases empty.symm.trans queued
    · cases queued.symm.trans queued'
      refine ⟨_, done, rfl, rfl, rfl, fun p hp => ?_⟩
      cases p with
      | tx => simp at hp
      | events => simp at hp
      | returned => simp at hp
      | _ => rfl
  · exact exec_hostTxPop_empty running

/-- Settles O28: the row is kind 8, and STOP relays as many bytes as are drawn, or all. -/
theorem stopRelaysAPrefixAndTearsDown : Obligations.StopRelaysAPrefixAndTearsDown := by
  unfold Obligations.StopRelaysAPrefixAndTearsDown
  refine ⟨fun k row => decodeKey_of_row row nofun, fun s running => ?_⟩
  refine ⟨_, s.tx.take s.draw.relayed, exec_stop_running running, s.tx.take_prefix _, List.length_take_of_le, rfl, rfl,
    rfl, rfl, rfl, fun p hp => ?_⟩
  cases p with
  | events => simp at hp
  | tx => simp at hp
  | rx => simp at hp
  | life => simp at hp
  | returned => simp at hp
  | _ => rfl

end Sys2Proof.Machine
end

section
/-! SUPPORT. Request words in the schedule (30_encoding.md R72, R92, R98): each runs under the DLAB value that stands
before its own step. -/

namespace Sys2Proof.Machine

@[simp] theorem State.setDraw_dlab (d : Draw) (s : State) : (s.setDraw d).dlab = s.dlab := rfl

/-- Settles O7: a request word is taken off the schedule, its draws are put in place, and it is decoded under LCR as it
stands. -/
theorem stepRunsTheDecodedOperation : Obligations.StepRunsTheDecodedOperation := by
  unfold Obligations.StepRunsTheDecodedOperation
  intro s w d rest i schedule decoded
  simp [step, fetch_request schedule, fetchWord, decoded]

/-- A step presented with a request's word runs the operation the request is under the DLAB value before the step. -/
theorem step_request {s : State} {r : Request} {d : Draw} {rest : List Input}
    (schedule : s.schedule = .request r.word d :: rest) :
    step s = exec (r.select s.dlab) ((s.setSchedule rest).setDraw d) :=
  stepRunsTheDecodedOperation s r.word d rest _ schedule (decode_word r s.dlab)

/-- Settles O48: after the STORE of LCR, DLAB is bit 7 of the byte stored, and the next access is selected under it. -/
theorem lcrStoreBanksTheNextAccess : Obligations.LcrStoreBanksTheNextAccess := by
  unfold Obligations.LcrStoreBanksTheNextAccess
  intro s v w d₁ d₂ rest running legal
  have running' : ((s.setSchedule rest).setDraw d₁).life = .running := running
  obtain ⟨t, done, lcr, -, dlab, -, frame⟩ := storeReg_stores_raw running' .lcr 3 v
  have stored : step (s.setSchedule (.request (Request.store 3 v).word d₁ :: rest)) = .next t := by
    rw [step_request rfl, Request.select_store_of_two_le (by decide)]
    exact done
  have banking : t.dlab = v.getLsbD 7 := dlab legal
  refine ⟨t, stored, lcr, fun access banked plain row more next => ?_⟩
  have schedule : t.schedule = .request access.word d₂ :: more := (frame .schedule (by simp)).trans next
  rw [step_request schedule, banking]
  simp only [List.mem_cons, List.not_mem_nil, or_false, Prod.mk.injEq] at row
  obtain ⟨rfl, rfl, rfl⟩ | ⟨rfl, rfl, rfl⟩ | ⟨rfl, rfl, rfl⟩ | ⟨rfl, rfl, rfl⟩ := row <;> cases v.getLsbD 7 <;> rfl

/-! ## The expansion of `setdiv` (30_encoding.md R98) -/

/-- A run goes on from the state its first step leaves. -/
theorem run_succ {n : Nat} {s t : State} (h : step s = .next t) : run (n + 1) s = run n t := by
  simp [run, h]

/-- Taking a request off the schedule, with its draws, changes the schedule and the draws alone. -/
theorem setSchedule_setDraw_frame (rest : List Input) (d : Draw) (s : State) :
    Frame [.draw, .schedule] s ((s.setSchedule rest).setDraw d) := by
  intro p hp
  cases p with
  | draw => simp at hp
  | schedule => simp at hp
  | _ => rfl

/-- A step presented with the word of a raw STORE stores its byte, and outputs nothing but a Trace record. -/
theorem step_rawStore {s : State} {off : Offset} {v : Byte} {d : Draw} {rest : List Input} (running : s.life = .running)
    (schedule : s.schedule = .request (Request.store off v).word d :: rest) (r : Reg)
    (selected : exec ((Request.store off v).select s.dlab) = storeReg r off v v) :
    ∃ t, step s = .next t ∧ t.read r = v ∧ t.schedule = rest ∧ untraced t.events = untraced s.events ∧
      (s.cfg.wf = true → t.dlab = if r = .lcr then v.getLsbD 7 else s.dlab) ∧
      Frame [.reg r, .events, .returned, .draw, .schedule] s t := by
  have taken := setSchedule_setDraw_frame rest d s
  have running' : ((s.setSchedule rest).setDraw d).life = .running := running
  obtain ⟨t, done, stored, -, dlab, events, frame⟩ := storeReg_stores_raw running' r off v
  have stepped : step s = .next t := by rw [step_request schedule, selected, done]
  exact ⟨t, stepped, stored, frame .schedule (by simp), by simp [events], dlab,
    (taken.mono (by simp)).trans (frame.mono (by simp))⟩

/-- Settles O49: LCR gets its bit 7 set, DLM and DLL are stored under it, and LCR gets it cleared. -/
theorem setdivWritesTheDivisor : Obligations.SetdivWritesTheDivisor := by
  unfold Obligations.SetdivWritesTheDivisor
  intro s lcr m l d rest running legal schedule
  obtain ⟨s₁, step₁, -, schedule₁, events₁, dlab₁, frame₁⟩ :=
    step_rawStore running schedule .lcr (by rw [Request.select_store_of_two_le (by decide)]; rfl)
  have running₁ : s₁.life = .running := (frame₁ .life (by simp)).trans running
  have legal₁ : s₁.cfg.wf = true := (congrArg Config.wf (frame₁ .cfg (by simp))).trans legal
  have banked₁ : s₁.dlab = true := (dlab₁ legal).trans (by simp)
  obtain ⟨s₂, step₂, dlm₂, schedule₂, events₂, dlab₂, frame₂⟩ :=
    step_rawStore running₁ schedule₁ .dlm (by rw [banked₁]; rfl)
  have running₂ : s₂.life = .running := (frame₂ .life (by simp)).trans running₁
  have legal₂ : s₂.cfg.wf = true := (congrArg Config.wf (frame₂ .cfg (by simp))).trans legal₁
  have banked₂ : s₂.dlab = true := (dlab₂ legal₁).trans (by simp [banked₁])
  obtain ⟨s₃, step₃, dll₃, schedule₃, events₃, dlab₃, frame₃⟩ :=
    step_rawStore running₂ schedule₂ .dll (by rw [banked₂]; rfl)
  have running₃ : s₃.life = .running := (frame₃ .life (by simp)).trans running₂
  have legal₃ : s₃.cfg.wf = true := (congrArg Config.wf (frame₃ .cfg (by simp))).trans legal₂
  obtain ⟨t, step₄, lcr₄, schedule₄, events₄, dlab₄, frame₄⟩ :=
    step_rawStore running₃ schedule₃ .lcr (by rw [Request.select_store_of_two_le (by decide)]; rfl)
  have ran : run 4 s = .next t := by rw [run_succ step₁, run_succ step₂, run_succ step₃, run_succ step₄, run]
  have dll : t.read .dll = l := (frame₄ (.reg .dll) (by simp)).trans dll₃
  have dlm : t.read .dlm = m :=
    (frame₄ (.reg .dlm) (by simp)).trans ((frame₃ (.reg .dlm) (by simp)).trans dlm₂)
  have events : untraced t.events = untraced s.events := by rw [events₄, events₃, events₂, events₁]
  refine ⟨t, ran, dll, dlm, lcr₄, (dlab₄ legal₃).trans (by simp), schedule₄, events, ?_⟩
  exact (((frame₁.mono (by simp)).trans (frame₂.mono (by simp))).trans (frame₃.mono (by simp))).trans
    (frame₄.mono (by simp))

end Sys2Proof.Machine
end

section
/-! SUPPORT. States that look alike: they differ at most in register bits outside a mask, in Trace records and in
`TRACE_ENABLED`. Every update of the state keeps that, and so does every operation that loads no masked register. -/

namespace Sys2Proof.Machine

/-- Two states that agree in the bits `m r` of every register `r`, in the history without Trace records, and in every
other part but `TRACE_ENABLED`; with `tracing` they agree in `TRACE_ENABLED` and in Trace records too. -/
structure Alike (m : Reg → Byte) (tracing : Prop) (s t : State) : Prop where
  regs : ∀ r, t.read r &&& m r = s.read r &&& m r
  rx : t.rx = s.rx
  tx : t.tx = s.tx
  suspended : t.suspended = s.suspended
  life : t.life = s.life
  returned : t.returned = s.returned
  draw : t.draw = s.draw
  schedule : t.schedule = s.schedule
  config : t.cfg = { s.cfg with traceEnabled := t.cfg.traceEnabled }
  history : untraced t.events = untraced s.events
  traced : tracing → t.cfg = s.cfg ∧ t.events = s.events

namespace Alike

variable {m : Reg → Byte} {tracing : Prop} {s t : State}

/-! ## What alike states agree on -/

theorem codes (h : Alike m tracing s t) : t.cfg.codes = s.cfg.codes := by rw [h.config]
theorem irqLine (h : Alike m tracing s t) : t.cfg.irqLine = s.cfg.irqLine := by rw [h.config]
theorem rxDepth (h : Alike m tracing s t) : t.cfg.rxDepth = s.cfg.rxDepth := by rw [h.config]

theorem read (h : Alike m tracing s t) {r : Reg} (visible : m r = 0xFF) : t.read r = s.read r := by
  have all (v : Byte) : v &&& 0xFF = v := BitVec.and_allOnes
  simpa only [visible, all] using h.regs r

theorem hasInput (h : Alike m tracing s t) : t.hasInput = s.hasInput := by rw [State.hasInput, State.hasInput, h.rx]

theorem rxFull (h : Alike m tracing s t) : t.rxFull = s.rxFull := by
  unfold State.rxFull
  rw [h.rxDepth, h.rx]

/-- Alike states agree on a code's bit of a register when the mask shows the code. -/
theorem bitSet (h : Alike m tracing s t) {r : Reg} {code : Byte} (visible : code &&& m r = code) :
    bitSet (t.read r) code = bitSet (s.read r) code := by
  have masked (v : Byte) : v &&& code = (v &&& m r) &&& code := by
    rw [BitVec.and_assoc, BitVec.and_comm (m r), visible]
  rw [Machine.bitSet, Machine.bitSet, masked, masked (s.read r), h.regs r]

theorem dlab (h : Alike m tracing s t) (visible : s.cfg.codes.lcrDlab &&& m .lcr = s.cfg.codes.lcrDlab) :
    t.dlab = s.dlab := by
  rw [State.dlab, State.dlab, h.codes, h.bitSet visible]

theorem irqCond (h : Alike m tracing s t) (visible : s.cfg.codes.ierErbfi &&& m .ier = s.cfg.codes.ierErbfi) :
    t.irqCond = s.irqCond := by
  rw [State.irqCond, State.irqCond, h.codes, h.hasInput, h.bitSet visible]

/-! ## The updates of the state -/

theorem write (h : Alike m tracing s t) (r : Reg) (v : Byte) : Alike m tracing (s.write r v) (t.write r v) :=
  { h with
    regs := fun q => by
      rw [State.read_write, State.read_write]
      split
      · rfl
      · exact h.regs q }

theorem setRegs (h : Alike m tracing s t) (f : Regs) : Alike m tracing (s.setRegs f) (t.setRegs f) :=
  { h with regs := fun _ => rfl }

theorem setRx (h : Alike m tracing s t) (q : List Byte) : Alike m tracing (s.setRx q) (t.setRx q) :=
  { h with rx := rfl }

theorem setTx (h : Alike m tracing s t) (q : List Byte) : Alike m tracing (s.setTx q) (t.setTx q) :=
  { h with tx := rfl }

theorem setSuspended (h : Alike m tracing s t) (b : Bool) : Alike m tracing (s.setSuspended b) (t.setSuspended b) :=
  { h with suspended := rfl }

theorem setLife (h : Alike m tracing s t) (l : Life) : Alike m tracing (s.setLife l) (t.setLife l) :=
  { h with life := rfl }

theorem setReturned (h : Alike m tracing s t) (v : Option Byte) :
    Alike m tracing (s.setReturned v) (t.setReturned v) :=
  { h with returned := rfl }

theorem setDraw (h : Alike m tracing s t) (d : Draw) : Alike m tracing (s.setDraw d) (t.setDraw d) :=
  { h with draw := rfl }

theorem setSchedule (h : Alike m tracing s t) (l : List Input) : Alike m tracing (s.setSchedule l) (t.setSchedule l) :=
  { h with schedule := rfl }

theorem setCfg (h : Alike m tracing s t) (c : Config) : Alike m tracing (s.setCfg c) (t.setCfg c) :=
  { h with
    config := rfl
    traced := fun seen => ⟨rfl, (h.traced seen).2⟩ }

theorem emitAll (h : Alike m tracing s t) (es : List Event) : Alike m tracing (s.emitAll es) (t.emitAll es) :=
  { h with
    history := by simp [h.history]
    traced := fun seen => by
      obtain ⟨cfg, events⟩ := h.traced seen
      exact ⟨cfg, by simp [events]⟩ }

theorem trace (h : Alike m tracing s t) (kind : AccessKind) (off : Offset) (v : Byte) :
    Alike m tracing (s.trace kind off v) (t.trace kind off v) :=
  { h with
    history := by simp [h.history]
    traced := fun seen => by
      obtain ⟨cfg, events⟩ := h.traced seen
      exact ⟨cfg, by simp [cfg, events]⟩ }

theorem latchRbr (h : Alike m tracing s t) : Alike m tracing s.latchRbr t.latchRbr := by
  cases input : s.rx with
  | nil => rwa [latchRbr_empty input, latchRbr_empty (h.rx.trans input)]
  | cons b rest =>
    rw [latchRbr_cons input, latchRbr_cons (h.rx.trans input)]
    exact (h.write .rbr b).setRx rest

theorem constructed (h : Alike m tracing s t) : Alike m tracing s.constructed t.constructed := by
  rw [State.constructed, State.constructed, h.draw]
  exact (((((h.setCfg _).setRegs _).setRx _).setTx _).setSuspended _).setLife _

/-! ## How operations begin and end -/

/-- The lifecycle precondition asks the life, on which alike states agree. -/
theorem whenRunning (h : Alike m tracing s t) {f g : State → Result}
    (body : SameOutcome (Alike m tracing) (f s) (g t)) :
    SameOutcome (Alike m tracing) (whenRunning s f) (whenRunning t g) := by
  cases life : s.life with
  | running => rwa [whenRunning_of_running life, whenRunning_of_running (h.life.trans life)]
  | stopped => rw [whenRunning_stopped life, whenRunning_stopped (h.life.trans life)]; rfl
  | unconstructed => rw [whenRunning_unconstructed life, whenRunning_unconstructed (h.life.trans life)]; rfl
  | aborted => rw [whenRunning_aborted life, whenRunning_aborted (h.life.trans life)]; rfl

theorem finish (h : Alike m tracing s t) : SameOutcome (Alike m tracing) (finish s) (finish t) := h.setReturned none

theorem finishLoad (h : Alike m tracing s t) (off : Offset) {v w : Byte} (same : w = v) :
    SameOutcome (Alike m tracing) (finishLoad off v s) (finishLoad off w t) := by
  subst same
  exact (h.trace .load off w).setReturned (some w)

theorem finishStore (h : Alike m tracing s t) (off : Offset) (v : Byte) :
    SameOutcome (Alike m tracing) (finishStore off v s) (finishStore off v t) :=
  (h.trace .store off v).finish

theorem loadReg (h : Alike m tracing s t) {r : Reg} (visible : m r = 0xFF) (off : Offset) :
    SameOutcome (Alike m tracing) (loadReg r off s) (loadReg r off t) :=
  h.whenRunning (h.finishLoad off (h.read visible))

theorem storeReg (h : Alike m tracing s t) (r : Reg) (off : Offset) (stored v : Byte) :
    SameOutcome (Alike m tracing) (storeReg r off stored v s) (storeReg r off stored v t) :=
  h.whenRunning ((h.write r stored).finishStore off v)

theorem storeDiscarded (h : Alike m tracing s t) (off : Offset) (v : Byte) :
    SameOutcome (Alike m tracing) (storeDiscarded off v s) (storeDiscarded off v t) :=
  h.whenRunning (h.finishStore off v)

theorem raiseDeviceAbort (h : Alike m tracing s t) (reason : AbortReason) :
    SameOutcome (Alike m tracing) (raiseDeviceAbort reason s) (raiseDeviceAbort reason t) :=
  ((h.emitAll [.abort reason]).setLife .aborted).finish

theorem construct (h : Alike m tracing s t) : SameOutcome (Alike m tracing) (construct s) (construct t) := by
  unfold Machine.construct
  rw [h.draw]
  split
  · split
    · exact h.raiseDeviceAbort .startup
    · exact h.constructed.finish
  · rfl

theorem execConstruct (h : Alike m tracing s t) :
    SameOutcome (Alike m tracing) (execConstruct s) (execConstruct t) := by
  unfold Machine.execConstruct
  rw [h.life]
  cases s.life with
  | unconstructed => exact h.construct
  | stopped => exact h.construct
  | running => rfl
  | aborted => rfl

theorem execHostRx (h : Alike m tracing s t) (b : Byte) :
    SameOutcome (Alike m tracing) (execHostRx b s) (execHostRx b t) := by
  refine h.whenRunning ?_
  rw [h.suspended, h.rxFull, rxPush_eq, rxPush_eq, h.rx]
  split
  · exact h.finish
  · split
    · rfl
    · exact (h.setRx _).finish

theorem execHostTxPop (h : Alike m tracing s t) :
    SameOutcome (Alike m tracing) (execHostTxPop s) (execHostTxPop t) := by
  refine h.whenRunning ?_
  rw [h.tx, h.draw]
  cases s.tx with
  | nil => rfl
  | cons b rest =>
    cases s.draw.ok with
    | true => exact ((h.setTx rest).emitAll [.hostOut b]).finish
    | false => exact (h.setTx rest).finish

theorem execStop (h : Alike m tracing s t) : SameOutcome (Alike m tracing) (execStop s) (execStop t) := by
  refine h.whenRunning ?_
  rw [h.tx, h.draw]
  exact ((((h.emitAll _).setTx []).setRx []).setLife .stopped).finish

theorem execService (h : Alike m tracing s t)
    (visible : s.cfg.codes.ierErbfi &&& m .ier = s.cfg.codes.ierErbfi) :
    SameOutcome (Alike m tracing) (execService s) (execService t) := by
  refine h.whenRunning ?_
  rw [h.irqCond visible, h.irqLine]
  split
  · exact (h.emitAll _).finish
  · exact h.finish

theorem execLoadRbr (h : Alike m tracing s t) (visible : m .rbr = 0xFF) :
    SameOutcome (Alike m tracing) (execLoadRbr s) (execLoadRbr t) := by
  have rbr : t.latchRbr.read .rbr = s.latchRbr.read .rbr := by
    rw [latchRbr_rbr, latchRbr_rbr, h.rx, h.read visible]
  exact h.whenRunning (h.latchRbr.finishLoad 0 rbr)

theorem execStoreThr (h : Alike m tracing s t) (v : Byte) :
    SameOutcome (Alike m tracing) (execStoreThr v s) (execStoreThr v t) := by
  refine h.whenRunning ?_
  rw [writeOne_eq, writeOne_eq, State.write_tx, State.write_tx, h.tx]
  exact ((h.write .thr v).setTx _).finishStore 0 v

theorem execStoreIer (h : Alike m tracing s t) (v : Byte) :
    SameOutcome (Alike m tracing) (execStoreIer v s) (execStoreIer v t) := by
  rw [Machine.execStoreIer, Machine.execStoreIer, h.codes]
  exact h.storeReg .ier 1 _ v

theorem execSuspend (h : Alike m tracing s t) : SameOutcome (Alike m tracing) (execSuspend s) (execSuspend t) :=
  h.whenRunning (h.setSuspended true).finish

theorem execResume (h : Alike m tracing s t) : SameOutcome (Alike m tracing) (execResume s) (execResume t) :=
  h.whenRunning (h.setSuspended false).finish

theorem execLoadIir (h : Alike m tracing s t) : SameOutcome (Alike m tracing) (execLoadIir s) (execLoadIir t) :=
  h.whenRunning (h.finishLoad 2 (by rw [State.iir, State.iir, h.hasInput, h.codes]))

theorem execLoadLsr (h : Alike m tracing s t) : SameOutcome (Alike m tracing) (execLoadLsr s) (execLoadLsr t) :=
  h.whenRunning (h.finishLoad 5 (by rw [State.lsr, State.lsr, h.hasInput, h.codes]))

theorem execLoadMsr (h : Alike m tracing s t) : SameOutcome (Alike m tracing) (execLoadMsr s) (execLoadMsr t) :=
  h.whenRunning (h.finishLoad 6 (by rw [State.msr, State.msr, h.codes]))

theorem execBridgeFault (h : Alike m tracing s t) :
    SameOutcome (Alike m tracing) (execBridgeFault s) (execBridgeFault t) :=
  h.whenRunning (h.raiseDeviceAbort .wait)

end Alike

/-! ## Every operation -/

/-- The stored register whose byte a LOAD returns, all 8 bits (40_loads.md). -/
def loadedRegister : Instr → Option Reg
  | .loadRbr => some .rbr
  | .loadDll => some .dll
  | .loadIer => some .ier
  | .loadDlm => some .dlm
  | .loadLcr => some .lcr
  | .loadMcr => some .mcr
  | .loadScr => some .scr
  | _ => none

/-- On alike states an operation that loads no masked register ends alike. -/
theorem Alike.exec {m : Reg → Byte} {tracing : Prop} {s t : State} (h : Alike m tracing s t) (i : Instr)
    (enable : s.cfg.codes.ierErbfi &&& m .ier = s.cfg.codes.ierErbfi)
    (visible : ∀ r, loadedRegister i = some r → m r = 0xFF) :
    SameOutcome (Alike m tracing) (exec i s) (exec i t) := by
  cases i with
  | loadRbr => exact h.execLoadRbr (visible .rbr rfl)
  | loadDll => exact h.loadReg (visible .dll rfl) 0
  | loadIer => exact h.loadReg (visible .ier rfl) 1
  | loadDlm => exact h.loadReg (visible .dlm rfl) 1
  | loadLcr => exact h.loadReg (visible .lcr rfl) 3
  | loadMcr => exact h.loadReg (visible .mcr rfl) 4
  | loadScr => exact h.loadReg (visible .scr rfl) 7
  | loadIir => exact h.execLoadIir
  | loadLsr => exact h.execLoadLsr
  | loadMsr => exact h.execLoadMsr
  | storeThr v => exact h.execStoreThr v
  | storeIer v => exact h.execStoreIer v
  | storeDll v => exact h.storeReg .dll 0 v v
  | storeDlm v => exact h.storeReg .dlm 1 v v
  | storeLcr v => exact h.storeReg .lcr 3 v v
  | storeMcr v => exact h.storeReg .mcr 4 v v
  | storeScr v => exact h.storeReg .scr 7 v v
  | storeFcr v => exact h.storeDiscarded 2 v
  | storeLsr v => exact h.storeDiscarded 5 v
  | storeMsr v => exact h.storeDiscarded 6 v
  | service => exact h.execService enable
  | hostRx b => exact h.execHostRx b
  | hostTxPop => exact h.execHostTxPop
  | suspend => exact h.execSuspend
  | resume => exact h.execResume
  | construct => exact h.execConstruct
  | stop => exact h.execStop

/-! ## Every step -/

/-- Two inputs fetched alike: the same operation, or the bridge's fault step, on related states, or the same refusal.
-/
inductive SameFetched (R : State → State → Prop) : Fetched → Fetched → Prop where
  | op (i : Instr) {s t : State} (related : R s t) : SameFetched R (.op i s) (.op i t)
  | bridgeFault {s t : State} (related : R s t) : SameFetched R (.bridgeFault s) (.bridgeFault t)
  | refused (r : Refusal) : SameFetched R (.refused r) (.refused r)

namespace Alike

variable {m : Reg → Byte} {tracing : Prop} {s t : State}

/-- A word is decoded under DLAB, and run from the state it is fetched on. -/
theorem fetchWord (h : Alike m tracing s t) (same_dlab : t.dlab = s.dlab) (w : RequestWord) :
    SameFetched (Alike m tracing) (fetchWord w s) (fetchWord w t) := by
  unfold Machine.fetchWord
  rw [same_dlab]
  cases decode w s.dlab with
  | ok i => exact .op i h
  | reservedKind k => exact .refused _

theorem busRequest (h : Alike m tracing s t) (a : BusAccess) : busRequest t.cfg a = busRequest s.cfg a := by
  rw [h.config]
  cases a <;> rfl

theorem fetch (h : Alike m tracing s t) (visible : s.cfg.codes.lcrDlab &&& m .lcr = s.cfg.codes.lcrDlab) :
    SameFetched (Alike m tracing) (fetch s) (fetch t) := by
  have same_dlab := h.dlab visible
  unfold Machine.fetch
  rw [h.schedule]
  cases s.schedule with
  | nil => exact .refused _
  | cons input rest =>
    have taken := h.setSchedule rest
    cases input with
    | request w d => exact (taken.setDraw d).fetchWord same_dlab w
    | bus a =>
      simp only [fetchInput, taken.busRequest a]
      cases Machine.busRequest (s.setSchedule rest).cfg a with
      | ok r => exact taken.fetchWord same_dlab r.word
      | error e => exact .refused e
    | bridgeFault => exact .bridgeFault taken

/-- Alike states step alike, when the mask shows DLAB and the receive interrupt's enable, and the operation fetched
loads no masked register. -/
theorem step (h : Alike m tracing s t) (dlab : s.cfg.codes.lcrDlab &&& m .lcr = s.cfg.codes.lcrDlab)
    (enable : s.cfg.codes.ierErbfi &&& m .ier = s.cfg.codes.ierErbfi)
    (visible : ∀ i u, Machine.fetch s = .op i u → ∀ r, loadedRegister i = some r → m r = 0xFF) :
    SameOutcome (Alike m tracing) (step s) (step t) := by
  have fetched := h.fetch dlab
  unfold Machine.step
  generalize fetch_s : Machine.fetch s = f, Machine.fetch t = g at fetched visible
  cases fetched with
  | @op i u _ related =>
    have same_cfg : u.cfg = s.cfg := fetch_op_frame fetch_s .cfg (by simp)
    exact related.exec i (by rw [same_cfg, enable]) (visible i u rfl)
  | bridgeFault related => exact related.execBridgeFault
  | refused r => rfl

end Alike

/-- Related outcomes stay related under a weaker relation. -/
theorem SameOutcome.mono {R R' : State → State → Prop} (weaker : ∀ a b, R a b → R' a b) {a b : Result}
    (same : SameOutcome R a b) : SameOutcome R' a b := by
  cases a <;> cases b
  case next.next => exact weaker _ _ same
  all_goals exact same

end Sys2Proof.Machine
end

section
/-! SUPPORT. Trace records, and the registers and bits that are only read back (40_loads.md R110, 41_stores.md R130,
10_state.md R22 to R24, R27, R30, R31): states that differ there alone look alike. -/

namespace Sys2Proof.Machine

/-- Equal but for the trace is alike with every register bit visible and the trace not. -/
theorem equalButTrace_iff {s t : State} : EqualButTrace s t ↔ Alike (fun _ => 0xFF) False s t := by
  constructor
  · rintro ⟨frame, history, config⟩
    exact ⟨fun r => congrArg (· &&& 0xFF) (frame (.reg r) (by simp)), frame .rx (by simp), frame .tx (by simp),
      frame .suspended (by simp), frame .life (by simp), frame .returned (by simp), frame .draw (by simp),
      frame .schedule (by simp), config, history, False.elim⟩
  · intro h
    refine ⟨fun p hp => ?_, h.history, h.config⟩
    cases p with
    | reg r => exact h.read rfl
    | events => simp at hp
    | cfg => simp at hp
    | rx => exact h.rx
    | tx => exact h.tx
    | suspended => exact h.suspended
    | life => exact h.life
    | returned => exact h.returned
    | draw => exact h.draw
    | schedule => exact h.schedule

/-- Settles O50: states equal but for the trace are alike with every register bit visible. -/
theorem traceIsObservabilityOnly : Obligations.TraceIsObservabilityOnly := by
  unfold Obligations.TraceIsObservabilityOnly
  intro s t same
  have all (v : Byte) : v &&& 0xFF = v := BitVec.and_allOnes
  have stepped := (equalButTrace_iff.mp same).step (all _) (all _) (fun _ _ _ _ _ => rfl)
  exact stepped.mono fun _ _ => equalButTrace_iff.mpr

/-- The mask that shows `bits` of one register and every other register whole. -/
def maskOne (r : Reg) (bits : Byte) (q : Reg) : Byte := if q = r then bits else 0xFF

theorem maskOne_same (r : Reg) (bits : Byte) : maskOne r bits r = bits := if_pos rfl

theorem maskOne_ne {q r : Reg} (other : q ≠ r) (bits : Byte) : maskOne r bits q = 0xFF := if_neg other

/-- Alike but for the hidden bits of one register is: equal but for that register, which agrees in its visible bits. -/
theorem alike_maskOne_iff {r : Reg} {bits : Byte} {s t : State} :
    Alike (maskOne r bits) True s t ↔ Frame [.reg r] s t ∧ t.read r &&& bits = s.read r &&& bits := by
  constructor
  · intro h
    obtain ⟨cfg, events⟩ := h.traced trivial
    refine ⟨fun p hp => ?_, by simpa only [maskOne_same] using h.regs r⟩
    cases p with
    | reg q => exact h.read (maskOne_ne (by simpa using hp) bits)
    | events => exact events
    | cfg => exact cfg
    | rx => exact h.rx
    | tx => exact h.tx
    | suspended => exact h.suspended
    | life => exact h.life
    | returned => exact h.returned
    | draw => exact h.draw
    | schedule => exact h.schedule
  · rintro ⟨frame, visible⟩
    have cfg : t.cfg = s.cfg := frame .cfg (by simp)
    have events : t.events = s.events := frame .events (by simp)
    refine ⟨fun q => ?_, frame .rx (by simp), frame .tx (by simp), frame .suspended (by simp), frame .life (by simp),
      frame .returned (by simp), frame .draw (by simp), frame .schedule (by simp), by rw [cfg], by rw [events],
      fun _ => ⟨cfg, events⟩⟩
    by_cases same : q = r
    · rw [same, maskOne_same, visible]
    · exact congrArg (· &&& maskOne r bits q) (frame (.reg q) (by simpa using same))

/-- States that differ in the hidden bits of one register step alike, when DLAB and the receive interrupt's enable are
visible and the operation fetched does not load that register. -/
theorem step_alike_maskOne {r : Reg} {bits : Byte} {s t : State} (frame : Frame [.reg r] s t)
    (agree : t.read r &&& bits = s.read r &&& bits)
    (dlab : r = .lcr → s.cfg.codes.lcrDlab &&& bits = s.cfg.codes.lcrDlab)
    (enable : r = .ier → s.cfg.codes.ierErbfi &&& bits = s.cfg.codes.ierErbfi)
    (unread : ∀ i u, fetch s = .op i u → loadedRegister i ≠ some r) :
    SameOutcome (fun a b => Frame [.reg r] a b ∧ b.read r &&& bits = a.read r &&& bits) (step s) (step t) := by
  have shows {q : Reg} {code : Byte} (shown : r = q → code &&& bits = code) : code &&& maskOne r bits q = code := by
    by_cases same : q = r
    · rw [same, maskOne_same, shown same.symm]
    · rw [maskOne_ne same]
      exact BitVec.and_allOnes
  have visible : ∀ i u, fetch s = .op i u → ∀ q, loadedRegister i = some q → maskOne r bits q = 0xFF :=
    fun i u fetched q loads => maskOne_ne (by rintro rfl; exact unread i u fetched loads) bits
  have stepped := (alike_maskOne_iff.mpr ⟨frame, agree⟩).step (shows dlab) (shows enable) visible
  exact stepped.mono fun _ _ => alike_maskOne_iff.mp

/-- Settles O51: no bit of the register is visible, and the operations that load it are those excluded. -/
theorem inertRegistersAreOnlyReadBack : Obligations.InertRegistersAreOnlyReadBack := by
  unfold Obligations.InertRegistersAreOnlyReadBack
  intro r s t inert frame unread
  have agree : t.read r &&& 0 = s.read r &&& 0 := by simp
  refine (step_alike_maskOne frame agree ?_ ?_ ?_).mono fun _ _ ⟨related, _⟩ => related
  · rintro rfl
    simp at inert
  · rintro rfl
    simp at inert
  · intro i u fetched loads
    refine unread i u ?_ fetched
    cases i <;> cases loads <;> simp at inert ⊢

/-- Two bytes agree under a one-bit mask exactly when they agree in that bit. -/
theorem and_bit7_eq_iff (v w : Byte) : w &&& 0x80 = v &&& 0x80 ↔ v.getLsbD 7 = w.getLsbD 7 := by
  have bit : ∀ x : Byte, x &&& 0x80 = if x.getLsbD 7 then 0x80 else 0 := by decide
  rw [bit, bit]
  cases v.getLsbD 7 <;> cases w.getLsbD 7 <;> decide

theorem and_bit0_eq_iff (v w : Byte) : w &&& 0x01 = v &&& 0x01 ↔ v.getLsbD 0 = w.getLsbD 0 := by
  have bit : ∀ x : Byte, x &&& 0x01 = if x.getLsbD 0 then 0x01 else 0 := by decide
  rw [bit, bit]
  cases v.getLsbD 0 <;> cases w.getLsbD 0 <;> decide

/-- Settles O52: in a legal configuration DLAB is the visible bit of LCR, and the receive interrupt's enable that of
IER. -/
theorem inertBitsAreOnlyReadBack : Obligations.InertBitsAreOnlyReadBack := by
  unfold Obligations.InertBitsAreOnlyReadBack
  intro s t legal
  obtain ⟨erbfi, lcrDlab, -⟩ := Config.wf_codes legal
  simp only [← and_bit7_eq_iff, ← and_bit0_eq_iff]
  constructor
  · intro frame agree unread
    refine step_alike_maskOne frame agree (fun _ => by rw [lcrDlab]; decide) nofun fun i u fetched loads => ?_
    cases i <;> cases loads
    exact unread u fetched
  · intro frame agree unread
    refine step_alike_maskOne frame agree nofun (fun _ => by rw [erbfi]; decide) fun i u fetched loads => ?_
    cases i <;> cases loads
    exact unread u fetched

end Sys2Proof.Machine
end
